-- ==== Sys2Proof/Word.lean ====
section
/-! DEFINITION. The word types of the block (00_scope.md R12): bytes, unsigned integers of 16 and 32 bits, and the
1024-byte packet. All integers of the block are unsigned. -/

namespace Sys2Proof

/-- A byte (00_scope.md R12: bytes are 8 bits). -/
abbrev Byte := BitVec 8

/-- `u16` of 00_scope.md R12; its `+` is the rule's `+_16`, addition modulo 2^16. -/
abbrev U16 := BitVec 16

/-- `u32` of 00_scope.md R12. -/
abbrev U32 := BitVec 32

/-- A packet: `pkt[0..1023]`, `pkt[0]` the first byte on the wire (00_scope.md R12, 30_encoding.md R80), with the proof of
its length: the type leaves no room for an answer of another length (92_eei_decisions.md D5; log 10). -/
structure Packet where
  bytes : List Byte
  length_bytes : bytes.length = 1024
deriving DecidableEq, Repr

end Sys2Proof
end

