-- ==== Sys2Proof/Config.lean ====
section
/-! DEFINITION. What is fixed for the machine: the fixed parameters of 00_scope.md R5, the open parameters of R6 as one
constant without a body, the values that cross the transport port (R10), and the free answers of the transport. -/

namespace Sys2Proof

/-- The opaque `path` of a descriptor (00_scope.md R10): a token that is only stored and passed on (log 9). -/
abbrev Path := Nat

/-- The opaque handle `T.open` returns (00_scope.md R10): a token that is only compared, stored and passed on (log 9). -/
abbrev Handle := Nat

/-- An element of what `T.enumerate` returns (00_scope.md R10). -/
structure Descriptor where
  usagePage : Nat
  path : Path
deriving DecidableEq, Repr

/-- The answers of `T.open` (00_scope.md R10). -/
inductive OpenAnswer
  | handle (h : Handle)
  | error
deriving DecidableEq, Repr, Inhabited

/-- The answers of `T.write` (00_scope.md R10). -/
inductive WriteAnswer
  | ok
  | error
deriving DecidableEq, Repr, Inhabited

/-- The answers of `T.read` (00_scope.md R10): a failure and a timeout are one answer (60_exceptions.md R201). -/
inductive ReadAnswer
  | response (rsp : Packet)
  | errorOrTimeout
deriving DecidableEq, Repr, Inhabited

/-- The open parameters of 00_scope.md R6. The byte sequences are in wire order; the identifiers have no stated width. -/
structure Params where
  opcodeBytes : Vector Byte 2
  subcmdBytes : Vector Byte 4
  vendorId : Nat
  productId : Nat
  usagePage : Nat
deriving DecidableEq, Repr, Inhabited

/-- The configured values of the open parameters (00_scope.md R6, 10_state.md R28). No body: the spec gives no value, so
nothing can be proved of one (92_eei_decisions.md D3, D4; log 8). -/
opaque Config.params : Params

/-- DESIGN CHOICE (log 1). Free answers of the transport, for a transaction past the answers that State holds: no body, so
every answer is possible (92_eei_decisions.md D22). The argument is the count of transactions answered before. -/
opaque Config.freeDevices : Nat → List Descriptor

/-- Free answer of `T.open`; see `Config.freeDevices` (log 1). -/
opaque Config.freeOpen : Nat → OpenAnswer

/-- Free answer of `T.write`; see `Config.freeDevices` (log 1). -/
opaque Config.freeWrite : Nat → WriteAnswer

/-- Free answer of `T.read`; see `Config.freeDevices` (log 1). -/
opaque Config.freeRead : Nat → ReadAnswer

/-! The fixed parameters of 00_scope.md R5 that an operation uses. -/

/-- PKT_LEN: bytes in every packet. -/
@[simp] abbrev Config.pktLen : Nat := 1024

/-- PKT_WORDS: 16-bit words in a packet. -/
@[simp] abbrev Config.pktWords : Nat := 512

/-- L: bytes of the framebuffer. -/
@[simp] abbrev Config.fbLen : Nat := 25600

/-- FB_H: rows of the framebuffer. -/
@[simp] abbrev Config.fbRows : Nat := 80

/-- FB_W: pixels in a row. -/
@[simp] abbrev Config.fbWidth : Nat := 160

/-- ROW_BYTES: bytes in a row. -/
@[simp] abbrev Config.rowBytes : Nat := 320

/-- SWAP_ROWS: row pairs the row reversal swaps. -/
@[simp] abbrev Config.swapRows : Nat := 40

/-- S: the chunk stride in bytes. -/
@[simp] abbrev Config.stride : Nat := 1012

/-- N_CHUNKS: requests in a frame. -/
@[simp] abbrev Config.chunks : Nat := 26

/-- PAYLOAD_OFF: where the payload of a response begins. -/
@[simp] abbrev Config.payloadOff : Nat := 12

/-- PAYLOAD_MAX: the largest payload. -/
@[simp] abbrev Config.payloadMax : Nat := 1012

/-- LEN_MIN: lower clamp bound of `payload_length`. -/
@[simp] abbrev Config.lenMin : Nat := 8

/-- LEN_MAX: upper clamp bound of `payload_length`. -/
@[simp] abbrev Config.lenMax : Nat := 1020

/-- LEN_BIAS: subtracted from the clamped length. -/
@[simp] abbrev Config.lenBias : Nat := 8

/-- READ_TIMEOUT_MS: the number handed to every `T.read`; the model has no clock (92_eei_decisions.md D24; log 24). -/
@[simp] abbrev Config.readTimeoutMs : Nat := 2000

end Sys2Proof
end

