-- ==== Sys2Proof/Syntax.lean ====
section
/-! DEFINITION. The operations of the block: one constructor for each of the 22 rows of spec/opcode_table.json
(30_encoding.md R90, R92). The answers of the transport are inputs, not operands (00_scope.md R10); they stand in State. -/

namespace Sys2Proof

/-- The block's operations, in the table's order. -/
inductive Instr
  /-- REQ.READ_FB: the request packet on its way to the device, by `T.write` (30_encoding.md R81, R86; log 20). -/
  | reqReadFb (pkt : Packet)
  /-- RSP.READ_FB: the response packet, as the answer to the outstanding `T.read` (30_encoding.md R82, R86; log 20). -/
  | rspReadFb (rsp : Packet)
  /-- CHECKSUM16 (40_codec.md R110). -/
  | checksum16 (pkt : Packet)
  /-- BUILD_REQUEST (40_codec.md R111). -/
  | buildRequest (offset : U32)
  /-- CHECK_REQUEST (40_codec.md R113). -/
  | checkRequest (pkt : Packet)
  /-- EXTRACT_PAYLOAD (40_codec.md R114). -/
  | extractPayload (rsp : Packet)
  /-- PULL_FRAME (41_frame_transfer.md R130, R140). -/
  | pullFrame
  /-- PULL_START (41_frame_transfer.md R132). -/
  | pullStart
  /-- WRITE_STEP (41_frame_transfer.md R133). -/
  | writeStep
  /-- READ_STEP (41_frame_transfer.md R136). -/
  | readStep
  /-- ROW_REVERSE (42_framebuffer.md R160). -/
  | rowReverse
  /-- FB_ZERO (42_framebuffer.md R162). -/
  | fbZero
  /-- FB_SNAPSHOT (42_framebuffer.md R163). -/
  | fbSnapshot
  /-- SELECT_DEVICE (43_link_control.md R171). -/
  | selectDevice (ds : List Descriptor)
  /-- CONNECT (43_link_control.md R173). -/
  | connect
  /-- IO_FAILURE (43_link_control.md R174). -/
  | ioFailure
  /-- RECONNECT_ATTEMPT (43_link_control.md R175). -/
  | reconnectAttempt
  /-- SHUTDOWN (43_link_control.md R177). -/
  | shutdown
  /-- TICK_FAST (44_scheduler.md R190). -/
  | tickFast
  /-- TICK_SLOW (44_scheduler.md R191). -/
  | tickSlow
  /-- RESET (70_reset_and_hazards.md R230). -/
  | reset
  /-- OPEN_ATTEMPT, the pseudo-operation of 30_encoding.md R92 (43_link_control.md R172). -/
  | openAttempt
deriving DecidableEq, Repr

/-- The kinds of operation: the `kind` column of 30_encoding.md R90, and the two kinds of row that it names beside them. -/
inductive Kind
  /-- A pure function or predicate (format FN). -/
  | function
  /-- A sequence of steps (SEQ). -/
  | sequence
  /-- A step of a pull (STEP). -/
  | step
  /-- An operation on FB (FBOP). -/
  | fbOperation
  /-- A transition of link control (TRANS). -/
  | transition
  /-- A command of the host (CMD). -/
  | command
  /-- A wire format (REQ, RSP). -/
  | wire
  /-- A pseudo-operation of 30_encoding.md R92 (PSEUDO). -/
  | pseudo
deriving DecidableEq, Repr

end Sys2Proof
end

