-- ==== Sys2Proof/Machine/Operands.lean ====
section
/-! DEFINITION. The kinds of operation, and every operand form of the block, as pure functions: byte order (20_memory.md R51,
R52), the word view and the two packet layouts (30_encoding.md R81, R82), field assembly (R83), the codec functions over
them (40_codec.md), the chunk offsets (41_frame_transfer.md R131) and the descriptor scan (43_link_control.md R171). -/

namespace Sys2Proof

/-! Kinds of operation. -/

/-- The kind of an operation (30_encoding.md R90, R92; the `format` of its row in spec/opcode_table.json). -/
def Instr.kind : Instr → Kind
  | .reqReadFb _ => .wire
  | .rspReadFb _ => .wire
  | .checksum16 _ => .function
  | .buildRequest _ => .function
  | .checkRequest _ => .function
  | .extractPayload _ => .function
  | .pullFrame => .sequence
  | .pullStart => .step
  | .writeStep => .step
  | .readStep => .step
  | .rowReverse => .fbOperation
  | .fbZero => .fbOperation
  | .fbSnapshot => .fbOperation
  | .selectDevice _ => .function
  | .connect => .command
  | .ioFailure => .transition
  | .reconnectAttempt => .transition
  | .shutdown => .command
  | .tickFast => .command
  | .tickSlow => .command
  | .reset => .command
  | .openAttempt => .pseudo

/-- The kinds that `step` hands to their meaning while a pull is in progress: its own steps and packets, pure functions, which
touch no register, and commands, whose rules turn away all but RESET (41_frame_transfer.md R130, 44_scheduler.md R192, R193;
log 15, log 16). -/
def Kind.runsInPull : Kind → Bool
  | .function => true
  | .sequence => false
  | .step => true
  | .fbOperation => false
  | .transition => false
  | .command => true
  | .wire => true
  | .pseudo => false

/-! Byte order. -/

/-- `LE16(b0, b1) = b0 + 256 × b1` (00_scope.md R12). -/
def le16 (b0 b1 : Byte) : U16 := b1 ++ b0

/-- `LE32(b0, b1, b2, b3)` (00_scope.md R12). -/
def le32 (b0 b1 b2 b3 : Byte) : U32 := b3 ++ b2 ++ b1 ++ b0

/-- Byte `i` of an unsigned integer, byte 0 the least significant: `v[8i+7 : 8i]` (00_scope.md R12). -/
def byteOf {w : Nat} (v : BitVec w) (i : Nat) : Byte := v.extractLsb' (8 * i) 8

/-- `enc16(v)` (00_scope.md R12). -/
def enc16 (v : U16) : List Byte := [byteOf v 0, byteOf v 1]

/-- `enc32(v)` (00_scope.md R12). -/
def enc32 (v : U32) : List Byte := [byteOf v 0, byteOf v 1, byteOf v 2, byteOf v 3]

/-- `clamp(v, lo, hi)` (00_scope.md R12). -/
def clamp (v lo hi : Nat) : Nat := if v < lo then lo else if hi < v then hi else v

/-! Packets. -/

/-- Byte `i` of a packet, `pkt[i]` (00_scope.md R12); every use is at an address below 1024. -/
def Packet.byte (pkt : Packet) (i : Nat) : Byte := pkt.bytes.getD i 0

/-- Word `i` of a packet, `W(pkt, i) = LE16(pkt[2i], pkt[2i+1])` (20_memory.md R53). -/
def wordAt (pkt : Packet) (i : Nat) : U16 := le16 (pkt.byte (2 * i)) (pkt.byte (2 * i + 1))

/-- The sum modulo 2^16 of the little-endian words of a byte list, the first of them word `i`, word 1 left out. -/
def sumWords : Nat → List Byte → U16
  | i, b0 :: b1 :: rest => (if i = 1 then 0 else le16 b0 b1) + sumWords (i + 1) rest
  | _, _ => 0

/-- CHECKSUM16 (40_codec.md R110): the sum modulo 2^16 of the 512 words, word 1 left out. -/
def checksum16 (pkt : Packet) : U16 := sumWords 0 pkt.bytes

/-- The padding of a request, bytes 12 to 1023 (30_encoding.md R81, R89). -/
def padding : List Byte := List.replicate 1012 0#8

/-- The bytes of format REQ with a given checksum field (30_encoding.md R81): opcode, checksum, subcommand, offset, and
1012 bytes of zero. -/
def reqBytes (p : Params) (c : U16) (offset : U32) : List Byte :=
  p.opcodeBytes.toList ++ enc16 c ++ p.subcmdBytes.toList ++ enc32 offset ++ padding

theorem reqBytes_length (p : Params) (c : U16) (offset : U32) :
    (reqBytes p c offset).length = Config.pktLen := by
  simp only [reqBytes, enc16, enc32, padding, List.length_append, Vector.length_toList, List.length_replicate,
    List.length_cons, List.length_nil]

/-- Format REQ with a given checksum field (30_encoding.md R81). -/
def reqLayout (p : Params) (c : U16) (offset : U32) : Packet := ⟨reqBytes p c offset, reqBytes_length p c offset⟩

/-- BUILD_REQUEST (40_codec.md R111): lay the packet out with a zero checksum, sum it, store the sum. -/
def buildRequest (p : Params) (offset : U32) : Packet :=
  reqLayout p (checksum16 (reqLayout p 0 offset)) offset

/-- The stored checksum, bytes 2 and 3 of a request (30_encoding.md R81, R83). -/
def storedChecksum (pkt : Packet) : U16 := le16 (pkt.byte 2) (pkt.byte 3)

/-- CHECK_REQUEST (40_codec.md R113): the packet is internally self-checking. -/
def checkRequest (pkt : Packet) : Bool := storedChecksum pkt == checksum16 pkt

/-- The `offset` field of a request, bytes 8 to 11 (30_encoding.md R81, R87). -/
def requestOffset (pkt : Packet) : U32 :=
  le32 (pkt.byte 8) (pkt.byte 9) (pkt.byte 10) (pkt.byte 11)

/-- A packet is a request this block could have sent (30_encoding.md R87): the padding is zero, the opcode and subcommand
are the constants, and the stored checksum is right. -/
def isRequest (p : Params) (pkt : Packet) : Bool :=
  (pkt.bytes.drop 12).all (· == 0#8) && pkt.bytes.take 2 == p.opcodeBytes.toList
    && (pkt.bytes.drop 4).take 4 == p.subcmdBytes.toList && checkRequest pkt

/-- `payload_length` of a response, bytes 4 and 5 (30_encoding.md R82, R83). -/
def payloadLength (rsp : Packet) : U16 := le16 (rsp.byte 4) (rsp.byte 5)

/-- The payload byte count `n = clamp(pl, 8, 1020) − 8` (30_encoding.md R83). -/
def payloadCount (rsp : Packet) : Nat :=
  clamp (payloadLength rsp).toNat Config.lenMin Config.lenMax - Config.lenBias

/-- EXTRACT_PAYLOAD (40_codec.md R114): `rsp[12 .. 12 + n)`. Nothing else of the response is read (R115). -/
def extractPayload (rsp : Packet) : List Byte :=
  (rsp.bytes.drop Config.payloadOff).take (payloadCount rsp)

/-! Chunks and devices. -/

/-- `OFFSET(k) = k × 1012` (10_state.md R26, 41_frame_transfer.md R131). -/
def chunkOffset (k : Fin Config.chunks) : Nat := Config.stride * k.val

/-- The request for chunk `k` (41_frame_transfer.md R133). -/
def chunkRequest (p : Params) (k : Fin Config.chunks) : Packet := buildRequest p (BitVec.ofNat 32 (chunkOffset k))

/-- The chunk after `k`, and chunk 0 after the last (41_frame_transfer.md R141). -/
def nextChunk (k : Fin Config.chunks) : Fin Config.chunks :=
  if h : k.val + 1 < Config.chunks then ⟨k.val + 1, h⟩ else ⟨0, by decide⟩

/-- `k < 25` fails: chunk `k` is the last of a pull (41_frame_transfer.md R133, R136). -/
def lastChunk (k : Fin Config.chunks) : Bool := k.val == 25

/-- SELECT_DEVICE (43_link_control.md R171): the path of the first descriptor with the configured usage page. -/
def selectDevice (usagePage : Nat) : List Descriptor → Option Path
  | [] => none
  | d :: ds => if d.usagePage = usagePage then some d.path else selectDevice usagePage ds

end Sys2Proof
end

