-- ==== Sys2Proof/WellFormed.lean ====
section
/-! DEFINITION. Well-formed operations. The operand types leave one check: a REQ.READ_FB packet is a request in the sense
of 30_encoding.md R87. A response has no illegal encoding (R88), BUILD_REQUEST is defined for every u32 (R89), and the
other operations take any packet or any finite list of descriptors. -/

namespace Sys2Proof

/-- Well-formedness for given open parameters. -/
def Instr.wellFormedIn (p : Params) : Instr → Bool
  | .reqReadFb pkt => isRequest p pkt
  | .rspReadFb _ => true
  | .checksum16 _ => true
  | .buildRequest _ => true
  | .checkRequest _ => true
  | .extractPayload _ => true
  | .pullFrame => true
  | .pullStart => true
  | .writeStep => true
  | .readStep => true
  | .rowReverse => true
  | .fbZero => true
  | .fbSnapshot => true
  | .selectDevice _ => true
  | .connect => true
  | .ioFailure => true
  | .reconnectAttempt => true
  | .shutdown => true
  | .tickFast => true
  | .tickSlow => true
  | .reset => true
  | .openAttempt => true

/-- Well-formedness of an operation of this block. -/
def Instr.wellFormed (i : Instr) : Bool := i.wellFormedIn Config.params

end Sys2Proof
end

