-- ==== Sys2Proof/Decode.lean ====
section
/-! DEFINITION. Decoding and encoding. An operation is one byte string: the id of 30_encoding.md R90 (19 rows), or a tag
of the model's for the three rows that R90 gives no id (log 5), and then its operand. Packets stand as their 1024 wire bytes
(R81, R82), the u32 of BUILD_REQUEST little-endian (20_memory.md R51), a descriptor list self-delimiting (log 5). Zero bytes
may follow an operation; any other byte after it is rejected. -/

namespace Sys2Proof

/-- Why a byte string encodes no operation. Raised by `decode` alone; safe, the model stops. -/
inductive DecodeError
  /-- The first byte is no id of 30_encoding.md R90 and no tag of the model. -/
  | unknownOperation (id : Byte)
  /-- The string ends inside the operation, or is empty. -/
  | truncated
  /-- The packet after the REQ.READ_FB tag is no request (30_encoding.md R87). -/
  | notARequest
  /-- A marker byte of a descriptor list is neither 0 nor 1 (log 5). -/
  | badMarker (marker : Byte)
  /-- A byte after the operation is not zero. -/
  | trailingBytes
deriving DecidableEq, Repr

/-- The id of 30_encoding.md R90, and the model's tags 0x13 OPEN_ATTEMPT, 0x14 REQ.READ_FB, 0x15 RSP.READ_FB (log 5). -/
def Instr.id : Instr → Byte
  | .checksum16 _ => 0x00#8
  | .buildRequest _ => 0x01#8
  | .checkRequest _ => 0x02#8
  | .extractPayload _ => 0x03#8
  | .pullFrame => 0x04#8
  | .pullStart => 0x05#8
  | .writeStep => 0x06#8
  | .readStep => 0x07#8
  | .rowReverse => 0x08#8
  | .fbZero => 0x09#8
  | .fbSnapshot => 0x0A#8
  | .selectDevice _ => 0x0B#8
  | .connect => 0x0C#8
  | .ioFailure => 0x0D#8
  | .reconnectAttempt => 0x0E#8
  | .shutdown => 0x0F#8
  | .tickFast => 0x10#8
  | .tickSlow => 0x11#8
  | .reset => 0x12#8
  | .openAttempt => 0x13#8
  | .reqReadFb _ => 0x14#8
  | .rspReadFb _ => 0x15#8

/-! Operands. Each reader answers the operand and the bytes after it. -/

/-- A packet operand: the next 1024 bytes. -/
def decodePacket (bytes : List Byte) : Except DecodeError (Packet × List Byte) :=
  if h : (bytes.take Config.pktLen).length = Config.pktLen then
    .ok (⟨bytes.take Config.pktLen, h⟩, bytes.drop Config.pktLen)
  else .error .truncated

/-- A u32 operand: the next 4 bytes, little-endian (20_memory.md R51). -/
def decodeU32 : List Byte → Except DecodeError (U32 × List Byte)
  | b0 :: b1 :: b2 :: b3 :: rest => .ok (le32 b0 b1 b2 b3, rest)
  | _ => .error .truncated

/-- An unsigned integer of no stated width (log 5): a marker 1 before each byte, least significant first, then a
marker 0. -/
def decodeNat : List Byte → Except DecodeError (Nat × List Byte)
  | [] => .error .truncated
  | [m] => if m = 0#8 then .ok (0, []) else if m = 1#8 then .error .truncated else .error (.badMarker m)
  | m :: b :: rest =>
    if m = 0#8 then .ok (0, b :: rest)
    else if m = 1#8 then
      match decodeNat rest with
      | .ok (n, rest') => .ok (b.toNat + 256 * n, rest')
      | .error e => .error e
    else .error (.badMarker m)

/-- One descriptor: its usage page, then its path. -/
def decodeDescriptor (bytes : List Byte) : Except DecodeError (Descriptor × List Byte) :=
  match decodeNat bytes with
  | .error e => .error e
  | .ok (u, rest) =>
    match decodeNat rest with
    | .error e => .error e
    | .ok (p, rest') => .ok (⟨u, p⟩, rest')

/-- A descriptor list (log 5): a marker 1 before each descriptor, then a marker 0. The first argument bounds the number of
descriptors; the length of the bytes is always enough. -/
def decodeDescriptors : Nat → List Byte → Except DecodeError (List Descriptor × List Byte)
  | _, [] => .error .truncated
  | 0, _ :: _ => .error .truncated
  | fuel + 1, m :: rest =>
    if m = 0#8 then .ok ([], rest)
    else if m = 1#8 then
      match decodeDescriptor rest with
      | .error e => .error e
      | .ok (d, rest') =>
        match decodeDescriptors fuel rest' with
        | .error e => .error e
        | .ok (ds, rest'') => .ok (d :: ds, rest'')
    else .error (.badMarker m)

/-- An operation whose whole encoding is its id. -/
def bare (i : Instr) (rest : List Byte) : Except DecodeError (Instr × List Byte) := .ok (i, rest)

/-- An operation with a packet operand. -/
def withPacket (mk : Packet → Instr) (rest : List Byte) : Except DecodeError (Instr × List Byte) :=
  match decodePacket rest with
  | .ok (pkt, rest') => .ok (mk pkt, rest')
  | .error e => .error e

/-- REQ.READ_FB: the packet must be a request (30_encoding.md R87). -/
def decodeRequest (p : Params) (rest : List Byte) : Except DecodeError (Instr × List Byte) :=
  match decodePacket rest with
  | .ok (pkt, rest') => if isRequest p pkt then .ok (.reqReadFb pkt, rest') else .error .notARequest
  | .error e => .error e

/-- BUILD_REQUEST and its u32. -/
def decodeBuild (rest : List Byte) : Except DecodeError (Instr × List Byte) :=
  match decodeU32 rest with
  | .ok (v, rest') => .ok (.buildRequest v, rest')
  | .error e => .error e

/-- SELECT_DEVICE and its descriptors. -/
def decodeSelect (rest : List Byte) : Except DecodeError (Instr × List Byte) :=
  match decodeDescriptors rest.length rest with
  | .ok (ds, rest') => .ok (.selectDevice ds, rest')
  | .error e => .error e

/-- The operation at the front of a byte string, and the bytes after it. -/
def decodePrefix (p : Params) : List Byte → Except DecodeError (Instr × List Byte)
  | [] => .error .truncated
  | id :: rest =>
    match id.toNat with
    | 0x00 => withPacket .checksum16 rest
    | 0x01 => decodeBuild rest
    | 0x02 => withPacket .checkRequest rest
    | 0x03 => withPacket .extractPayload rest
    | 0x04 => bare .pullFrame rest
    | 0x05 => bare .pullStart rest
    | 0x06 => bare .writeStep rest
    | 0x07 => bare .readStep rest
    | 0x08 => bare .rowReverse rest
    | 0x09 => bare .fbZero rest
    | 0x0A => bare .fbSnapshot rest
    | 0x0B => decodeSelect rest
    | 0x0C => bare .connect rest
    | 0x0D => bare .ioFailure rest
    | 0x0E => bare .reconnectAttempt rest
    | 0x0F => bare .shutdown rest
    | 0x10 => bare .tickFast rest
    | 0x11 => bare .tickSlow rest
    | 0x12 => bare .reset rest
    | 0x13 => bare .openAttempt rest
    | 0x14 => decodeRequest p rest
    | 0x15 => withPacket .rspReadFb rest
    | _ => .error (.unknownOperation id)

/-- The operation a byte string encodes, for given open parameters: zero bytes may follow it. -/
def decodeIn (p : Params) (bytes : List Byte) : Except DecodeError Instr :=
  match decodePrefix p bytes with
  | .ok (i, rest) => if rest.all (· == 0#8) then .ok i else .error .trailingBytes
  | .error e => .error e

/-- The decoder of this block, total on every byte string. -/
def decode (bytes : List Byte) : Except DecodeError Instr := decodeIn Config.params bytes

/-! The encoder. -/

/-- The bytes of an unsigned integer; the first argument bounds their number. -/
def encodeNatFuel : Nat → Nat → List Byte
  | 0, _ => [0#8]
  | fuel + 1, n => if n = 0 then [0#8] else 1#8 :: BitVec.ofNat 8 n :: encodeNatFuel fuel (n / 256)

/-- An unsigned integer in the form `decodeNat` reads. -/
def encodeNat (n : Nat) : List Byte := encodeNatFuel n n

/-- A descriptor list in the form `decodeDescriptors` reads. -/
def encodeDescriptors : List Descriptor → List Byte
  | [] => [0#8]
  | d :: ds => 1#8 :: (encodeNat d.usagePage ++ encodeNat d.path ++ encodeDescriptors ds)

/-- The operand bytes of an operation. -/
def Instr.operandBytes : Instr → List Byte
  | .reqReadFb pkt => pkt.bytes
  | .rspReadFb rsp => rsp.bytes
  | .checksum16 pkt => pkt.bytes
  | .buildRequest offset => enc32 offset
  | .checkRequest pkt => pkt.bytes
  | .extractPayload rsp => rsp.bytes
  | .pullFrame => []
  | .pullStart => []
  | .writeStep => []
  | .readStep => []
  | .rowReverse => []
  | .fbZero => []
  | .fbSnapshot => []
  | .selectDevice ds => encodeDescriptors ds
  | .connect => []
  | .ioFailure => []
  | .reconnectAttempt => []
  | .shutdown => []
  | .tickFast => []
  | .tickSlow => []
  | .reset => []
  | .openAttempt => []

/-- The byte string of an operation: its id or tag, then its operand. -/
def encode (i : Instr) : List Byte := i.id :: i.operandBytes

/-! Words of spec/opcode_table.json. -/

/-- The low `n` bytes of a number, byte 0 (the least significant) first. -/
def bytesOfNat : Nat → Nat → List Byte
  | 0, _ => []
  | n + 1, w => BitVec.ofNat 8 w :: bytesOfNat n (w / 256)

/-- The byte string of a table word. A row of 1024 bytes is a wire packet: it stands behind the tag of REQ.READ_FB where it is
a request (30_encoding.md R87) and of RSP.READ_FB otherwise (R88, every packet is a response). Any other row begins with
its id; 1024 zero bytes follow, as many as the longest operand the zeros can stand for. -/
def tableBytes (nbits w : Nat) : List Byte :=
  let bytes := bytesOfNat (nbits / 8) w
  if h : bytes.length = Config.pktLen then
    (if isRequest Config.params ⟨bytes, h⟩ then 0x14#8 else 0x15#8) :: bytes
  else bytes ++ List.replicate Config.pktLen 0#8

/-- The operation this decoder reads from a table word. -/
def decodeTableWord (nbits w : Nat) : Option Instr :=
  match decode (tableBytes nbits w) with
  | .ok i => some i
  | .error _ => none

end Sys2Proof
end

