-- ==== Sys2Proof/Machine/State.lean ====
section
/-! DEFINITION. The state: the five items of 10_state.md R20 (`Block`), and beside them, apart, the model's own record of
what crosses the block's three ports (`Ports`), which a deterministic step can keep nowhere else (log 1 to log 4). -/

namespace Sys2Proof.Machine

/-- CONN (10_state.md R21): the three connection states, and no other. -/
inductive Conn
  | disconnected
  | connected
  | reconnecting
deriving DecidableEq, Repr

/-- PHASE (10_state.md R25): where a pull stands. -/
inductive Phase
  | idle
  | writePhase
  | readPhase
deriving DecidableEq, Repr

/-- The framebuffer's bytes (10_state.md R23): cells (address, byte) with addresses strictly rising below 25600 and no byte
0x00, which is what an unlisted address reads as (log 6). -/
abbrev Memory := List Host.Cell

/-- What an unlisted address of FB reads as: the reset content 0x00 (10_state.md R34; log 6). -/
abbrev Memory.unlisted : Byte := 0#8

/-- The canonical form of FB: equal framebuffers are equal lists. -/
abbrev Memory.wf (m : Memory) : Prop :=
  m.Pairwise (fun c d => c.1 < d.1) ∧ ∀ c ∈ m, c.2 ≠ Memory.unlisted ∧ c.1 < Config.fbLen

/-- The errors of 60_exceptions.md R200: transient values that select a branch in the caller and are stored in no
register (R202). -/
inductive ErrorKind
  /-- Code 1, raised by the open attempt. -/
  | enumerationFailed
  /-- Code 2, raised by the open attempt. -/
  | openFailed
  /-- Code 3, raised by WRITE_STEP at chunk `k`. -/
  | writeFailed (k : Fin Config.chunks)
  /-- Codes 4 and 5, raised by READ_STEP at chunk `k`: the block cannot tell them apart (60_exceptions.md R201; log 21). -/
  | readFailedOrTimeout (k : Fin Config.chunks)
deriving DecidableEq, Repr

/-- The result of a pull (10_state.md R27, 60_exceptions.md R201). -/
inductive PullResult
  | ok
  | errWrite
  | errRead
deriving DecidableEq, Repr

/-- The result of an open attempt (43_link_control.md R172). -/
inductive AttemptResult
  | success
  | failure (e : ErrorKind)
deriving DecidableEq, Repr

/-- The value an operation hands to its caller (log 2). -/
inductive Value
  /-- Nothing: the operation ends without a result. -/
  | nothing
  /-- The `u16` of CHECKSUM16. -/
  | word (v : U16)
  /-- The packet of BUILD_REQUEST. -/
  | packet (pkt : Packet)
  /-- The Boolean of CHECK_REQUEST. -/
  | flag (b : Bool)
  /-- The bytes of EXTRACT_PAYLOAD or FB_SNAPSHOT. -/
  | bytes (bs : List Byte)
  /-- The path, or none, of SELECT_DEVICE. -/
  | path (p : Option Path)
  /-- The result of a pull: of PULL_FRAME, or `Ok` of the last READ_STEP. -/
  | pulled (r : PullResult)
  /-- The error a WRITE_STEP or a READ_STEP raises. -/
  | raised (e : ErrorKind)
  /-- The result of an open attempt. -/
  | attempted (r : AttemptResult)
deriving DecidableEq, Repr

/-- The five commands of the command port (00_scope.md R9). -/
inductive Command
  | reset
  | connect
  | tickFast
  | tickSlow
  | shutdown
deriving DecidableEq, Repr

/-- Who presents an operation. -/
inductive Source
  /-- The host, at the command port: it can issue the five commands and nothing else (00_scope.md R9, 30_encoding.md R90). -/
  | host
  /-- A test bench, which is no port of the block: it evaluates one operation on its own, as 30_encoding.md R90 allows for the
  codec functions, or runs alone what is otherwise a part of a command (log 4). -/
  | bench
deriving DecidableEq, Repr

/-- An operation presented to the block, as its byte string (log 4, log 5). -/
structure Presented where
  source : Source
  bytes : List Byte
deriving DecidableEq, Repr

/-- A line of a run in the notation of 30_encoding.md R91: an accepted command, a transport transaction with its answer, or
an output event of the display port (00_scope.md R11). -/
inductive Label
  | command (c : Command)
  | enumerate (vendorId productId : Nat) (answer : List Descriptor)
  | openPath (path : Path) (answer : OpenAnswer)
  | write (h : Handle) (pkt : Packet) (answer : WriteAnswer)
  | read (h : Handle) (timeoutMs : Nat) (answer : ReadAnswer)
  | close (h : Handle)
  | frameReady (snapshot : List Byte)
  | connChanged (c : Conn)
  | repaint
deriving DecidableEq, Repr

/-- The complete architectural state of the block: the five items of 10_state.md R20. -/
structure Block where
  /-- CONN (R21). -/
  conn : Conn
  /-- HANDLE (R22). -/
  handle : Option Handle
  /-- FB (R23). -/
  fb : Memory
  /-- PHASE (R25). -/
  phase : Phase
  /-- K, 0 .. 25 (R25). -/
  k : Fin Config.chunks
deriving DecidableEq, Repr

/-- The MODEL's own fields: what the surroundings will put in at the ports, and the record of what came out. -/
structure Ports where
  /-- The operations the surroundings will present, in order (log 4). -/
  port : List Presented
  /-- False after SHUTDOWN until RESET (43_link_control.md R177; log 3). -/
  inService : Bool
  /-- The answers the transport will give to `T.enumerate`, in order (log 1). -/
  enumerations : List (List Descriptor)
  /-- The answers it will give to `T.open` (log 1). -/
  opens : List OpenAnswer
  /-- The answers it will give to `T.write` (log 1). -/
  writes : List WriteAnswer
  /-- The answers it will give to `T.read` (log 1). -/
  reads : List ReadAnswer
  /-- How many transactions were answered: the argument of the free answers (log 1). -/
  asked : Nat
  /-- The run so far, oldest line first (log 2). -/
  trace : List Label
  /-- What the last operation handed to its caller (log 2). -/
  result : Value
deriving DecidableEq, Repr

/-- The state of the model. -/
structure State extends Block, Ports where
deriving DecidableEq, Repr

/-- Faults. The spec has none: no behaviour of the block ends in a fault (93_implementation_defined.md part 1). -/
inductive Fault
  /-- Raised by TICK_FAST alone, in a state with CONN = Connected and HANDLE = none, which 10_state.md R22 rules out: there is
  no handle for the pull. Safe: the model stops, and in no state of a run (log 18). -/
  | handleMissing
deriving DecidableEq, Repr

/-- Refusals: situations to which the spec gives no behaviour. All are safe: the model stops. -/
inductive Refusal
  /-- Raised by an arm of `exec` whose instruction has no meaning yet. Safe. -/
  | notModelled (mnemonic : String)
  /-- Raised by `step`: the presented bytes encode no operation (30_encoding.md R90). Safe. -/
  | undecodable (e : DecodeError)
  /-- Raised by `step`: the host presents an operation that is none of the five commands (30_encoding.md R90, 00_scope.md R9;
  log 4). Safe. -/
  | notACommand
  /-- Raised by `step`: an operation that is no step of the pull, no pure function and no command is presented while PHASE is
  not Idle. No other operation runs in between (41_frame_transfer.md R130), and the display does not read then
  (70_reset_and_hazards.md R236, 93_implementation_defined.md U5; log 28). Safe. -/
  | pullInProgress
  /-- Raised by CONNECT, TICK_FAST, TICK_SLOW and SHUTDOWN while PHASE is not Idle: not accepted (44_scheduler.md R193,
  93_implementation_defined.md U12; log 15). Raised by OPEN_ATTEMPT there too (log 19). Safe. -/
  | busy
  /-- Raised by the same five after SHUTDOWN: only RESET is accepted (43_link_control.md R177, U13; log 3). Safe. -/
  | outOfService
  /-- Raised by CONNECT when CONN is not Disconnected: not accepted (43_link_control.md R173, U13; log 13). Safe. -/
  | alreadyConnecting
  /-- Raised by an internal operation whose Precondition line in spec/ does not hold (41_frame_transfer.md R132, R133, R136;
  43_link_control.md R174, R175; log 17), and by OPEN_ATTEMPT in Connected, where neither of its two callers runs (R173, R175;
  log 19). Safe. -/
  | preconditionNotMet
  /-- Raised by REQ.READ_FB when the packet is not the request for the chunk that is due (20_memory.md R63, 30_encoding.md
  R89; log 20). Safe. -/
  | notTheRequestDue
deriving DecidableEq, Repr

/-- What an operation ends in. -/
abbrev Result := Host.Outcome State Fault Refusal

/-- The machine right after reset (10_state.md R34, 70_reset_and_hazards.md R230); the fields of `Ports` are empty (log 7). -/
def State.reset : State where
  conn := .disconnected
  handle := none
  fb := []
  phase := .idle
  k := 0
  port := []
  inService := true
  enumerations := []
  opens := []
  writes := []
  reads := []
  asked := 0
  trace := []
  result := .nothing

end Sys2Proof.Machine
end

