-- ==== Sys2Proof/Machine/Flags.lean ====
section
/-! DEFINITION. The block has no condition codes; its two flags are functions of CONN (10_state.md R27). Beside them stand the
code numbers of the errors (60_exceptions.md R200) and the coarser result of a pull (R201). -/

namespace Sys2Proof.Machine

/-- CONNECTED (10_state.md R27): the answer to the scheduler's question. -/
def State.connectedFlag (s : State) : Bool := s.conn == .connected

/-- RECONNECTING (10_state.md R27): a reconnect should be attempted. -/
def State.reconnectingFlag (s : State) : Bool := s.conn == .reconnecting

/-- The codes of 60_exceptions.md R200; a failed read has both 4 and 5, which the block cannot tell apart (R201). -/
def ErrorKind.codes : ErrorKind → List Nat
  | .enumerationFailed => [1]
  | .openFailed => [2]
  | .writeFailed _ => [3]
  | .readFailedOrTimeout _ => [4, 5]

/-- The result of PULL_FRAME that an error of one of its steps stands for (60_exceptions.md R201); an error of an open attempt
stands for none. -/
def ErrorKind.pullResult : ErrorKind → Option PullResult
  | .enumerationFailed => none
  | .openFailed => none
  | .writeFailed _ => some .errWrite
  | .readFailedOrTimeout _ => some .errRead

end Sys2Proof.Machine
end

