-- ==== Sys2Proof/Machine/Ops.lean ====
section
/-! DEFINITION. The shared operations: reads and writes of FB, the registers, the ports, the two outcomes of a transport
transaction, the row reversal, the open attempt, failure entry (60_exceptions.md R208) and recovery (R209). -/

namespace Sys2Proof.Machine

/-! The framebuffer (42_framebuffer.md R164). -/

/-- One byte of FB. -/
def readByte : Memory → Nat → Byte
  | [], _ => Memory.unlisted
  | (x, b) :: m, a => if x = a then b else readByte m a

/-- `MemRead(addr, n)` (00_scope.md R12): `FB[addr .. addr + n)`. Cells below the address just read are dropped on the way;
they can be no later byte. -/
def memRead : Memory → Nat → Nat → List Byte
  | _, _, 0 => []
  | m, addr, n + 1 => readByte m addr :: memRead (m.dropWhile (fun c => decide (c.1 ≤ addr))) (addr + 1) n

/-- The cells of bytes laid down from `addr`, those that read as an unlisted address left out. -/
def cellsOf : Nat → List Byte → Memory
  | _, [] => []
  | addr, b :: bs => if b = Memory.unlisted then cellsOf (addr + 1) bs else (addr, b) :: cellsOf (addr + 1) bs

/-- `MemWrite(addr, n, v)` with `n` the length of `v` (00_scope.md R12): the cells below and above stay. -/
def memWrite (m : Memory) (addr : Nat) (bs : List Byte) : Memory :=
  m.filter (fun c => decide (c.1 < addr)) ++ cellsOf addr bs
    ++ m.filter (fun c => decide (addr + bs.length ≤ c.1))

/-- The framebuffer with every byte 0x00 (42_framebuffer.md R162): nothing listed. -/
def zeroedFb : Memory := []

/-- One swap of ROW_REVERSE: row `i` with row `79 − i` (42_framebuffer.md R160). -/
def swapRows (m : Memory) (i : Nat) : Memory :=
  let a := memRead m (Config.rowBytes * i) Config.rowBytes
  let b := memRead m (Config.rowBytes * (79 - i)) Config.rowBytes
  memWrite (memWrite m (Config.rowBytes * i) b) (Config.rowBytes * (79 - i)) a

/-- ROW_REVERSE (42_framebuffer.md R160): the 40 swaps, `i` in `[0, 40)`. -/
def rowReverse (m : Memory) : Memory := (List.range Config.swapRows).foldl swapRows m

/-- FB_SNAPSHOT (42_framebuffer.md R163): `MemRead(0, 25600)`. -/
def snapshot (m : Memory) : List Byte := memRead m 0 Config.fbLen

/-- How many bytes the chunk copy writes: `min(length(p), 25600 − off)` (41_frame_transfer.md R138). -/
def copyCount (k : Fin Config.chunks) (payload : List Byte) : Nat :=
  min payload.length (Config.fbLen - chunkOffset k)

/-- The chunk copy (41_frame_transfer.md R136, R138): the payload of the `k`-th response, cut to fit, to `1012 × k`. -/
def chunkCopy (m : Memory) (k : Fin Config.chunks) (rsp : Packet) : Memory :=
  memWrite m (chunkOffset k) ((extractPayload rsp).take (copyCount k (extractPayload rsp)))

/-! Registers and ports: one update each. -/

/-- `x[CONN] <- c`. -/
def State.setConn (s : State) (c : Conn) : State := { s with conn := c }

/-- `x[HANDLE] <- h`. -/
def State.setHandle (s : State) (h : Option Handle) : State := { s with handle := h }

/-- A write of FB. -/
def State.setFb (s : State) (m : Memory) : State := { s with fb := m }

/-- `pc <- (phase, k)` (00_scope.md R12). -/
def State.setPc (s : State) (p : Phase) (k : Fin Config.chunks) : State := { s with phase := p, k := k }

/-- In service or shut down (43_link_control.md R177; log 3). -/
def State.setService (s : State) (b : Bool) : State := { s with inService := b }

/-- The operations still to be presented (log 4). -/
def State.setPort (s : State) (frames : List Presented) : State := { s with port := frames }

/-- One more line of the run: `emit E` of 00_scope.md R12 is `log` of an event (log 2). -/
def State.log (s : State) (l : Label) : State := { s with trace := s.trace ++ [l] }

/-- The value handed to the caller (log 2). -/
def State.setResult (s : State) (v : Value) : State := { s with result := v }

/-! The transport port (00_scope.md R10). Each transaction has its answer, an input, and the state after it. -/

/-- The next answer of `T.enumerate`: the given one, or a free value (log 1). -/
def State.enumAnswer (s : State) : List Descriptor :=
  match s.enumerations with
  | a :: _ => a
  | [] => Config.freeDevices s.asked

/-- The next answer of `T.open` (log 1). -/
def State.openAnswer (s : State) : OpenAnswer :=
  match s.opens with
  | a :: _ => a
  | [] => Config.freeOpen s.asked

/-- The next answer of `T.write` (log 1). -/
def State.writeAnswer (s : State) : WriteAnswer :=
  match s.writes with
  | a :: _ => a
  | [] => Config.freeWrite s.asked

/-- The next answer of `T.read` (log 1). -/
def State.readAnswer (s : State) : ReadAnswer :=
  match s.reads with
  | a :: _ => a
  | [] => Config.freeRead s.asked

/-- After `T.enumerate(VENDOR_ID, PRODUCT_ID)`. -/
def State.tEnumerate (s : State) : State :=
  { s with
    enumerations := s.enumerations.tail
    asked := s.asked + 1
    trace := s.trace ++ [.enumerate Config.params.vendorId Config.params.productId s.enumAnswer] }

/-- After `T.open(path)`. -/
def State.tOpen (s : State) (path : Path) : State :=
  { s with
    opens := s.opens.tail
    asked := s.asked + 1
    trace := s.trace ++ [.openPath path s.openAnswer] }

/-- After `T.write(h, pkt)`. -/
def State.tWrite (s : State) (h : Handle) (pkt : Packet) : State :=
  { s with
    writes := s.writes.tail
    asked := s.asked + 1
    trace := s.trace ++ [.write h pkt s.writeAnswer] }

/-- After `T.read(h, 2000)`. -/
def State.tRead (s : State) (h : Handle) : State :=
  { s with
    reads := s.reads.tail
    asked := s.asked + 1
    trace := s.trace ++ [.read h Config.readTimeoutMs s.readAnswer] }

/-- After `T.read(h, 2000)` whose answer is the presented response (log 20): the given answers stay. -/
def State.tReadOf (s : State) (h : Handle) (rsp : Packet) : State :=
  { s with
    asked := s.asked + 1
    trace := s.trace ++ [.read h Config.readTimeoutMs (.response rsp)] }

/-- After `T.close(h)`, which answers nothing. -/
def State.tClose (s : State) (h : Handle) : State := s.log (.close h)

/-! The steps of a pull (41_frame_transfer.md R133, R136). -/

/-- After a request was accepted: the next chunk's request, or after the last the read phase (R133, R135). -/
def State.afterWrite (s : State) : State :=
  (if lastChunk s.k then s.setPc .readPhase 0 else s.setPc .writePhase (nextChunk s.k)).setResult .nothing

/-- A failed step: the position drops to Idle and the error is handed on (R133, R136; 60_exceptions.md R205). -/
def State.raise (s : State) (e : ErrorKind) : State := (s.setPc .idle 0).setResult (.raised e)

/-- One write of the write phase (R133): the packet goes out, and its answer selects the branch. -/
def State.sendRequest (s : State) (h : Handle) (pkt : Packet) : State :=
  match s.writeAnswer with
  | .ok => (s.tWrite h pkt).afterWrite
  | .error => (s.tWrite h pkt).raise (.writeFailed s.k)

/-- A response for the chunk that is due (R136): the copy, then the next chunk, or after the last the row reversal and the
end of the pull. -/
def State.acceptResponse (s : State) (rsp : Packet) : State :=
  if lastChunk s.k then
    ((s.setFb (rowReverse (chunkCopy s.fb s.k rsp))).setPc .idle 0).setResult (.pulled .ok)
  else
    ((s.setFb (chunkCopy s.fb s.k rsp)).setPc .readPhase (nextChunk s.k)).setResult .nothing

/-- One read of the read phase (R136). -/
def State.receiveResponse (s : State) (h : Handle) : State :=
  match s.readAnswer with
  | .response rsp => (s.tRead h).acceptResponse rsp
  | .errorOrTimeout => (s.tRead h).raise (.readFailedOrTimeout s.k)

/-! The pull as one function (41_frame_transfer.md R140). -/

/-- The write phase over a list of chunks, cut short by the first error; the answer says whether every write was
accepted. -/
def State.writeAll (h : Handle) : List (Fin Config.chunks) → State → WriteAnswer × State
  | [], s => (.ok, s)
  | k :: ks, s =>
    match s.writeAnswer with
    | .ok => State.writeAll h ks (s.tWrite h (chunkRequest Config.params k))
    | .error => (.error, s.tWrite h (chunkRequest Config.params k))

/-- The read phase over a list of chunks, cut short by the first failure; the Boolean says whether every read gave a
response. -/
def State.readAll (h : Handle) : List (Fin Config.chunks) → State → Bool × State
  | [], s => (true, s)
  | k :: ks, s =>
    match s.readAnswer with
    | .response rsp => State.readAll h ks ((s.tRead h).setFb (chunkCopy s.fb k rsp))
    | .errorOrTimeout => (false, s.tRead h)

/-- PULL_FRAME (41_frame_transfer.md R140): 26 writes, then 26 reads, then the row reversal; the position ends at
(Idle, 0) whatever the result (R141). -/
def State.pull (s : State) (h : Handle) : PullResult × State :=
  match State.writeAll h (List.finRange Config.chunks) s with
  | (.error, s1) => (.errWrite, s1.setPc .idle 0)
  | (.ok, s1) =>
    match State.readAll h (List.finRange Config.chunks) s1 with
    | (false, s2) => (.errRead, s2.setPc .idle 0)
    | (true, s2) => (.ok, (s2.setFb (rowReverse s2.fb)).setPc .idle 0)

/-! Link control (43_link_control.md). -/

/-- The defensive close of an open attempt, and the close of SHUTDOWN: close a held handle and hold none (R172, R177). -/
def State.closeHeld (s : State) : State :=
  match s.handle with
  | some h => (s.tClose h).setHandle none
  | none => s

/-- The success of an open attempt, the counterpart of a return from an exception (R172; 60_exceptions.md R209): FB zeroed,
the handle held, Connected. -/
def State.attach (s : State) (h : Handle) : State :=
  ((s.setFb zeroedFb).setHandle (some h)).setConn .connected

/-- `T.open` of the selected path and what follows (R172). -/
def State.openSelected (s : State) (path : Path) : AttemptResult × State :=
  match s.openAnswer with
  | .handle h => (.success, (s.tOpen path).attach h)
  | .error => (.failure .openFailed, s.tOpen path)

/-- `T.enumerate`, SELECT_DEVICE and what follows (R172). -/
def State.searchAndOpen (s : State) : AttemptResult × State :=
  match selectDevice Config.params.usagePage s.enumAnswer with
  | none => (.failure .enumerationFailed, s.tEnumerate)
  | some path => s.tEnumerate.openSelected path

/-- The open attempt (R172). -/
def State.attempt (s : State) : AttemptResult × State := s.closeHeld.searchAndOpen

/-- Failure entry, the counterpart of taking an exception (R174; 60_exceptions.md R208): the handle closed, FB zeroed,
Reconnecting; nothing is saved. -/
def State.ioFailure (s : State) (h : Handle) : State :=
  ((((s.tClose h).setHandle none).setFb zeroedFb).setConn .reconnecting).log (.connChanged .reconnecting)

/-- A reconnect attempt with its event (R175). -/
def State.reconnect (s : State) : AttemptResult × State :=
  match s.attempt with
  | (.success, t) => (.success, t.log (.connChanged .connected))
  | (.failure e, t) => (.failure e, t)

/-- The first attempt with its event; a failure leaves Reconnecting (R173). -/
def State.firstConnect (s : State) : State :=
  match s.attempt with
  | (.success, t) => t.log (.connChanged .connected)
  | (.failure _, t) => (t.setConn .reconnecting).log (.connChanged .reconnecting)

/-- A pull and what the fast tick does with its result (44_scheduler.md R190). -/
def State.pullAndReport (s : State) (h : Handle) : State :=
  match s.pull h with
  | (.ok, t) => t.log (.frameReady (snapshot t.fb))
  | (.errWrite, t) => t.ioFailure h
  | (.errRead, t) => t.ioFailure h

/-- A reconnect attempt and what the slow tick does with its result (44_scheduler.md R191). -/
def State.reconnectAndReport (s : State) : State :=
  match s.reconnect with
  | (.success, t) => t.log (.frameReady (snapshot t.fb))
  | (.failure _, t) => t

/-! The command port (00_scope.md R9). -/

/-- Why a command other than RESET is not accepted now, if it is not (44_scheduler.md R193, 43_link_control.md R177). -/
def State.turnedAway (s : State) : Option Refusal :=
  if s.inService = false then some .outOfService
  else if s.phase = .idle then none
  else some .busy

/-- Why a presented operation does not run at all, if it does not: the host issues the five commands only (30_encoding.md R90),
and nothing else runs between the steps of a pull (41_frame_transfer.md R130). -/
def State.barred (s : State) (source : Source) (i : Instr) : Option Refusal :=
  if source = .host ∧ i.kind ≠ .command then some .notACommand
  else if s.phase ≠ .idle ∧ i.kind.runsInPull = false then some .pullInProgress
  else none

/-- The operation presented next, and the state without it; none where nothing is presented (log 4). -/
def fetch (s : State) : Option (Presented × State) :=
  match s.port with
  | [] => none
  | p :: rest => some (p, s.setPort rest)

/-- What the block does with nothing presented: the step of the pull in progress (41_frame_transfer.md R141), or nothing
(70_reset_and_hazards.md R242; log 16). -/
def sequencer (s : State) : Option Instr :=
  match s.phase with
  | .idle => none
  | .writePhase => some .writeStep
  | .readPhase => some .readStep

end Sys2Proof.Machine
end

