-- ==== Sys2Proof/Machine/Codec.lean ====
section
/-! DEFINITION. The packet codec (40_codec.md): four pure functions of their operand and the constants. They write no state, emit
no event and touch no port; they run in every state, and the value goes to the caller. -/

namespace Sys2Proof.Machine

/-- CHECKSUM16 (40_codec.md R110). -/
def execChecksum16 (pkt : Packet) (s : State) : Result := .next (s.setResult (.word (checksum16 pkt)))

/-- BUILD_REQUEST (40_codec.md R111). -/
def execBuildRequest (offset : U32) (s : State) : Result :=
  .next (s.setResult (.packet (buildRequest Config.params offset)))

/-- CHECK_REQUEST (40_codec.md R113): a false result is a value. -/
def execCheckRequest (pkt : Packet) (s : State) : Result := .next (s.setResult (.flag (checkRequest pkt)))

/-- EXTRACT_PAYLOAD (40_codec.md R114). -/
def execExtractPayload (rsp : Packet) (s : State) : Result := .next (s.setResult (.bytes (extractPayload rsp)))

end Sys2Proof.Machine
end

