-- ==== Sys2Proof/Machine/Framebuffer.lean ====
section
/-! DEFINITION. Framebuffer operations (42_framebuffer.md), and the pixel view of FB (10_state.md R24), which no operation reads. -/

namespace Sys2Proof.Machine

/-- ROW_REVERSE (42_framebuffer.md R160). -/
def execRowReverse (s : State) : Result := .next ((s.setFb (rowReverse s.fb)).setResult .nothing)

/-- FB_ZERO (42_framebuffer.md R162). -/
def execFbZero (s : State) : Result := .next ((s.setFb zeroedFb).setResult .nothing)

/-- FB_SNAPSHOT (42_framebuffer.md R163): read only. That it is not presented during a pull is `State.barred` (log 28). -/
def execFbSnapshot (s : State) : Result := .next (s.setResult (.bytes (snapshot s.fb)))

/-- Pixel `p`, `LE16(FB[2p], FB[2p+1])` (10_state.md R24, the spec's decision D10; log 12). -/
def pixel (m : Memory) (p : Nat) : U16 := le16 (readByte m (2 * p)) (readByte m (2 * p + 1))

/-- The pixel at row `r`, column `c` (20_memory.md R54). -/
def pixelAt (m : Memory) (r c : Nat) : U16 := pixel m (Config.fbWidth * r + c)

/-- Red, bits 15:11 of a pixel (10_state.md R24; log 12). -/
def red (v : U16) : BitVec 5 := v.extractLsb' 11 5

/-- Green, bits 10:5 of a pixel (10_state.md R24; log 12). -/
def green (v : U16) : BitVec 6 := v.extractLsb' 5 6

/-- Blue, bits 4:0 of a pixel (10_state.md R24; log 12). -/
def blue (v : U16) : BitVec 5 := v.extractLsb' 0 5

end Sys2Proof.Machine
end

