-- ==== Sys2Proof/Machine/Link.lean ====
section
/-! DEFINITION. Link control (43_link_control.md): the operations that write CONN and HANDLE. -/

namespace Sys2Proof.Machine

/-- SELECT_DEVICE (43_link_control.md R171): `none` is a value. -/
def execSelectDevice (ds : List Descriptor) (s : State) : Result :=
  .next (s.setResult (.path (selectDevice Config.params.usagePage ds)))

/-- OPEN_ATTEMPT (43_link_control.md R172, 30_encoding.md R92): it runs where its two callers run, in Disconnected and in
Reconnecting (R173, R175), so that HANDLE = some exactly when CONN = Connected stays true (10_state.md R22; log 19). A
handle held there is closed first. -/
def execOpenAttempt (s : State) : Result :=
  match s.turnedAway with
  | some r => .refused r
  | none =>
    match s.conn with
    | .connected => .refused .preconditionNotMet
    | .disconnected => .next (s.attempt.2.setResult (.attempted s.attempt.1))
    | .reconnecting => .next (s.attempt.2.setResult (.attempted s.attempt.1))

/-- CONNECT (43_link_control.md R173): accepted in Disconnected only (log 13). Its errors are absorbed
(60_exceptions.md R205). -/
def execConnect (s : State) : Result :=
  match s.turnedAway with
  | some r => .refused r
  | none =>
    match s.conn with
    | .disconnected => .next ((s.log (.command .connect)).firstConnect.setResult .nothing)
    | .connected => .refused .alreadyConnecting
    | .reconnecting => .refused .alreadyConnecting

/-- The handle that IO_FAILURE closes: CONN = Connected, HANDLE = some(h), PHASE = Idle (43_link_control.md R174). -/
def State.failingHandle (s : State) : Option Handle :=
  if s.conn = .connected ∧ s.phase = .idle then s.handle else none

/-- IO_FAILURE (43_link_control.md R174). -/
def execIoFailure (s : State) : Result :=
  match s.failingHandle with
  | some h => .next ((s.ioFailure h).setResult .nothing)
  | none => .refused .preconditionNotMet

/-- RECONNECT_ATTEMPT (43_link_control.md R175): CONN = Reconnecting and PHASE = Idle; its errors are absorbed into the
result. -/
def execReconnectAttempt (s : State) : Result :=
  if s.conn = .reconnecting ∧ s.phase = .idle then
    .next (s.reconnect.2.setResult (.attempted s.reconnect.1))
  else .refused .preconditionNotMet

/-- SHUTDOWN (43_link_control.md R177): FB stays, no event (log 23). -/
def execShutdown (s : State) : Result :=
  match s.turnedAway with
  | some r => .refused r
  | none =>
    .next (((((s.log (.command .shutdown)).closeHeld).setConn .disconnected).setService false).setResult .nothing)

end Sys2Proof.Machine
end

