-- ==== Sys2Proof/Machine/Reset.lean ====
section
/-! DEFINITION. RESET (70_reset_and_hazards.md R230). -/

namespace Sys2Proof.Machine

/-- RESET (70_reset_and_hazards.md R230): accepted in every state; no transaction and no event, a held handle is forgotten
and not closed (log 23). -/
def execReset (s : State) : Result :=
  .next ((((((s.log (.command .reset)).setConn .disconnected).setHandle none).setFb zeroedFb).setPc .idle 0).setService true
    |>.setResult .nothing)

end Sys2Proof.Machine
end

