-- ==== Sys2Proof/Machine/Scheduler.lean ====
section
/-! DEFINITION. The two ticks (44_scheduler.md). Every error is absorbed into a transition or a retry (60_exceptions.md R205). -/

namespace Sys2Proof.Machine

/-- TICK_FAST (44_scheduler.md R190): one pull when Connected, else REPAINT. -/
def execTickFast (s : State) : Result :=
  match s.turnedAway with
  | some r => .refused r
  | none =>
    match s.conn with
    | .connected =>
      match s.handle with
      | some h => .next (((s.log (.command .tickFast)).pullAndReport h).setResult .nothing)
      | none => .fault .handleMissing
    | .disconnected => .next (((s.log (.command .tickFast)).log .repaint).setResult .nothing)
    | .reconnecting => .next (((s.log (.command .tickFast)).log .repaint).setResult .nothing)

/-- TICK_SLOW (44_scheduler.md R191): one reconnect attempt when Reconnecting, else nothing. -/
def execTickSlow (s : State) : Result :=
  match s.turnedAway with
  | some r => .refused r
  | none =>
    match s.conn with
    | .reconnecting => .next ((s.log (.command .tickSlow)).reconnectAndReport.setResult .nothing)
    | .connected => .next ((s.log (.command .tickSlow)).setResult .nothing)
    | .disconnected => .next ((s.log (.command .tickSlow)).setResult .nothing)

end Sys2Proof.Machine
end

