-- ==== Sys2Proof/Machine/Transfer.lean ====
section
/-! DEFINITION. Frame transfer (41_frame_transfer.md): the pull as one operation and as its steps, and the two wire packets as the
transactions of a pull. A precondition that does not hold is a refusal (log 17). -/

namespace Sys2Proof.Machine

/-- The handle of a pull that may begin: CONN = Connected, HANDLE = some(h), PHASE = Idle (41_frame_transfer.md R132). -/
def State.pullHandle (s : State) : Option Handle :=
  if s.conn = .connected ∧ s.phase = .idle then s.handle else none

/-- The handle of a step in a phase: PHASE is that phase, HANDLE = some(h) (41_frame_transfer.md R133, R136). -/
def State.phaseHandle (s : State) (p : Phase) : Option Handle :=
  if s.phase = p then s.handle else none

/-- PULL_FRAME (41_frame_transfer.md R130, R140): the whole pull, its result to the caller; CONN and HANDLE stay, and no
event is emitted. -/
def execPullFrame (s : State) : Result :=
  match s.pullHandle with
  | some h => .next ((s.pull h).2.setResult (.pulled (s.pull h).1))
  | none => .refused .preconditionNotMet

/-- PULL_START (41_frame_transfer.md R132). -/
def execPullStart (s : State) : Result :=
  match s.pullHandle with
  | some _ => .next ((s.setPc .writePhase 0).setResult .nothing)
  | none => .refused .preconditionNotMet

/-- WRITE_STEP (41_frame_transfer.md R133). -/
def execWriteStep (s : State) : Result :=
  match s.phaseHandle .writePhase with
  | some h => .next (s.sendRequest h (chunkRequest Config.params s.k))
  | none => .refused .preconditionNotMet

/-- READ_STEP (41_frame_transfer.md R136). -/
def execReadStep (s : State) : Result :=
  match s.phaseHandle .readPhase with
  | some h => .next (s.receiveResponse h)
  | none => .refused .preconditionNotMet

/-- REQ.READ_FB (30_encoding.md R81, R86): the request packet on the wire. In the write phase, the packet of the chunk that
is due goes to `T.write`, with WRITE_STEP's consequences; the block sends no other packet (20_memory.md R63; log 20). -/
def execReqReadFb (pkt : Packet) (s : State) : Result :=
  match s.phaseHandle .writePhase with
  | some h =>
    if pkt = chunkRequest Config.params s.k then .next (s.sendRequest h pkt) else .refused .notTheRequestDue
  | none => .refused .preconditionNotMet

/-- RSP.READ_FB (30_encoding.md R82, R86, R88): the response packet on the wire. In the read phase it is the answer to the
`T.read` of the chunk that is due, whatever it holds, with READ_STEP's consequences (41_frame_transfer.md R143; log 20). -/
def execRspReadFb (rsp : Packet) (s : State) : Result :=
  match s.phaseHandle .readPhase with
  | some h => .next ((s.tReadOf h rsp).acceptResponse rsp)
  | none => .refused .preconditionNotMet

end Sys2Proof.Machine
end

