-- ==== Sys2Proof/Machine/Dispatch.lean ====
section
/-! DEFINITION. One arm for each operation (30_encoding.md R90, R92), in the order of spec/opcode_table.json. -/

namespace Sys2Proof.Machine

def exec (i : Instr) (s : State) : Host.Outcome State Fault Refusal :=
  match i with
  | .reqReadFb pkt => Sys2Proof.Machine.execReqReadFb pkt s
  | .rspReadFb rsp => Sys2Proof.Machine.execRspReadFb rsp s
  | .checksum16 pkt => Sys2Proof.Machine.execChecksum16 pkt s
  | .buildRequest offset => Sys2Proof.Machine.execBuildRequest offset s
  | .checkRequest pkt => Sys2Proof.Machine.execCheckRequest pkt s
  | .extractPayload rsp => Sys2Proof.Machine.execExtractPayload rsp s
  | .pullFrame => Sys2Proof.Machine.execPullFrame s
  | .pullStart => Sys2Proof.Machine.execPullStart s
  | .writeStep => Sys2Proof.Machine.execWriteStep s
  | .readStep => Sys2Proof.Machine.execReadStep s
  | .rowReverse => Sys2Proof.Machine.execRowReverse s
  | .fbZero => Sys2Proof.Machine.execFbZero s
  | .fbSnapshot => Sys2Proof.Machine.execFbSnapshot s
  | .selectDevice ds => Sys2Proof.Machine.execSelectDevice ds s
  | .connect => Sys2Proof.Machine.execConnect s
  | .ioFailure => Sys2Proof.Machine.execIoFailure s
  | .reconnectAttempt => Sys2Proof.Machine.execReconnectAttempt s
  | .shutdown => Sys2Proof.Machine.execShutdown s
  | .tickFast => Sys2Proof.Machine.execTickFast s
  | .tickSlow => Sys2Proof.Machine.execTickSlow s
  | .reset => Sys2Proof.Machine.execReset s
  | .openAttempt => Sys2Proof.Machine.execOpenAttempt s

end Sys2Proof.Machine
end

