-- ==== Sys2Proof/Machine/Step.lean ====
section
/-! DEFINITION. One step of the machine, and how an operation is placed where the step takes it (log 4, log 16). -/

namespace Sys2Proof.Machine

/-- The presented operation is decoded and run, unless it is barred. With nothing presented, the pull in progress goes on
(41_frame_transfer.md R141), and an idle block stays as it is (70_reset_and_hazards.md R242). -/
def step (s : State) : Host.Outcome State Fault Refusal :=
  match fetch s with
  | some (p, t) =>
    match decode p.bytes with
    | .ok i =>
      match t.barred p.source i with
      | some r => .refused r
      | none => exec i t
    | .error e => .refused (.undecodable e)
  | none =>
    match sequencer s with
    | some i => exec i s
    | none => .next s

/-- The operation of a table word, presented next by the test bench. -/
def State.withFetchWord (s : State) (nbits w : Nat) : State := s.setPort (⟨.bench, tableBytes nbits w⟩ :: s.port)

end Sys2Proof.Machine
end

