-- ==== Sys2Proof/Safety.lean ====
section
/-! DEFINITION. What counts as a sound state and a safe run, in the terms the statements use. -/

namespace Sys2Proof.Machine

/-- The operation that the next step runs, if one is presented and decodes, or if a pull is in progress. -/
def State.presented (s : State) : Option Instr :=
  match fetch s with
  | some (p, _) => (decode p.bytes).toOption
  | none => sequencer s

/-- Whatever is still to be presented comes from the host: the runs of the block as it stands among its surroundings, with no
test bench (00_scope.md R8, R9). -/
def State.HostOnly (s : State) : Prop := ∀ p ∈ s.port, p.source = .host

/-- The sound states: what every operation of the block leaves true. -/
structure State.Sound (s : State) : Prop where
  /-- HANDLE = some(h) exactly when CONN = Connected (10_state.md R22). -/
  handle_iff : s.handle.isSome = true ↔ s.conn = .connected
  /-- While PHASE is Idle, K is 0 (10_state.md R25). -/
  idle_k : s.phase = .idle → s.k = 0
  /-- A pull runs only in Connected (41_frame_transfer.md R130, R132). -/
  pulling : s.phase ≠ .idle → s.conn = .connected
  /-- FB is in canonical form, every listed address below 25600 (20_memory.md R60; log 6). -/
  fb_wf : s.fb.wf
  /-- After SHUTDOWN, CONN is Disconnected (43_link_control.md R177; log 3). -/
  shut : s.inService = false → s.conn = .disconnected

/-- How often `T.open` answered the handle `h` in a run (43_link_control.md R178). -/
def openedCount (h : Handle) (run : List Label) : Nat :=
  run.countP fun l => match l with
    | .openPath _ (.handle h') => h' == h
    | _ => false

/-- How often `T.close(h)` was made in a run (43_link_control.md R178). -/
def closedCount (h : Handle) (run : List Label) : Nat :=
  run.countP fun l => match l with
    | .close h' => h' == h
    | _ => false

/-- Every handle opened and not yet closed is the one in HANDLE (43_link_control.md R178, R179). -/
def State.HandlesBalanced (s : State) : Prop :=
  ∀ h, openedCount h s.trace = closedCount h s.trace + (if s.handle = some h then 1 else 0)

/-- The request for chunk `k`: BUILD_REQUEST of `1012 × k` (41_frame_transfer.md R131, R133). -/
def requestFor (k : Nat) : Packet := buildRequest Config.params (BitVec.ofNat 32 (1012 * k))

/-- The run of the first `n` writes of a pull, all accepted (41_frame_transfer.md R140). -/
def writeRun (h : Handle) (n : Nat) : List Label := (List.range n).map fun k => .write h (requestFor k) .ok

/-- The run of reads that gave these responses (41_frame_transfer.md R140). -/
def readRun (h : Handle) (rsps : List Packet) : List Label := rsps.map fun r => .read h 2000 (.response r)

/-- The payload byte count of a response, spelled out (40_codec.md R114). -/
def payloadBytes (rsp : Packet) : Nat :=
  max 8 (min ((rsp.byte 4).toNat + 256 * (rsp.byte 5).toNat) 1020) - 8

/-- Every byte of FB is 0x00. -/
def State.Blank (s : State) : Prop := ∀ a, readByte s.fb a = 0#8

end Sys2Proof.Machine
end

