-- ==== Sys2Proof/Certificates/Slice0/Obligations.lean ====
section
/-! DEFINITION. The statements for the provers. Each names the rule of spec/ it formalises, or says what it is derived from.
`setX` and `log` are the named updates of one register or port of Machine/Ops.lean; an equation `exec i s = .next t` with `t`
made of such updates of `s` is at once the completion, the result and the frame of `i`. -/

open Sys2Proof Sys2Proof.Machine

/-! Decoding, encoding, and the step. -/

/-- The words written out from 30_encoding.md R90 (ids), 20_memory.md R51 (little-endian u32) and log 5 (descriptors). -/
def Obligations.WrittenWordsDecode : Prop :=
  decode [0x06#8] = .ok .writeStep ∧ decode [0x10#8] = .ok .tickFast ∧ decode [0x12#8, 0#8, 0#8] = .ok .reset ∧
  decode [0x01#8, 0xF4#8, 0x03#8, 0x00#8, 0x00#8] = .ok (.buildRequest 0x000003F4#32) ∧
  decode [0x0B#8, 1#8, 1#8, 5#8, 0#8, 1#8, 7#8, 1#8, 1#8, 0#8, 0#8] = .ok (.selectDevice [⟨5, 263⟩]) ∧
  decode [0x12#8, 0#8, 1#8] = .error .trailingBytes ∧ decode [] = .error .truncated

/-- Decode and encode agree on every well-formed operation with every operand, zero padding after it allowed. The operand
bytes are the model's choice (log 5). -/
def Obligations.EncodedOperationDecodes : Prop :=
  ∀ (i : Instr) (n : Nat), i.wellFormed = true → decode (encode i ++ List.replicate n 0#8) = .ok i

/-- The decoder yields well-formed operations only: REQ.READ_FB holds a request in the sense of 30_encoding.md R87. -/
def Obligations.DecodedOperationIsWellFormed : Prop :=
  ∀ (bytes : List Byte) (i : Instr), decode bytes = .ok i → i.wellFormed = true

/-- First bytes that are no id and no tag are rejected by name (30_encoding.md R90; log 5). -/
def Obligations.UnknownIdsAreRejected : Prop :=
  ∀ (b : Byte) (rest : List Byte), 0x16 ≤ b.toNat → decode (b :: rest) = .error (.unknownOperation b)

/-- The step runs the operation presented at the port, unless it is barred; with nothing presented it goes on with the pull, or
stays (41_frame_transfer.md R130, R141, 30_encoding.md R90, 70_reset_and_hazards.md R242; log 4, log 16). -/
def Obligations.StepRunsPresentedOperation : Prop :=
  ∀ s : State,
    (∀ p rest i, s.port = p :: rest → decode p.bytes = .ok i → (p.source = .host → i.kind = .command) →
      (s.phase = .idle ∨ i.kind.runsInPull = true) → step s = exec i (s.setPort rest)) ∧
    (∀ p rest i, s.port = p :: rest → decode p.bytes = .ok i → p.source = .host → i.kind ≠ .command →
      step s = .refused .notACommand) ∧
    (∀ p rest i, s.port = p :: rest → decode p.bytes = .ok i → p.source = .bench → s.phase ≠ .idle →
      i.kind.runsInPull = false → step s = .refused .pullInProgress) ∧
    (∀ p rest e, s.port = p :: rest → decode p.bytes = .error e → step s = .refused (.undecodable e)) ∧
    (s.port = [] → s.phase = .writePhase → step s = exec .writeStep s) ∧
    (s.port = [] → s.phase = .readPhase → step s = exec .readStep s) ∧
    (s.port = [] → s.phase = .idle → step s = .next s)

/-- An operation placed by `withFetchWord` is the one the next step runs; during a pull, if it is none that is barred there
(log 4, log 16). -/
def Obligations.PlacedTableWordRuns : Prop :=
  ∀ (s : State) (nbits w : Nat) (i : Instr), decodeTableWord nbits w = some i →
    (s.phase = .idle ∨ i.kind.runsInPull = true) → step (s.withFetchWord nbits w) = exec i s

/-- 30_encoding.md R90, 00_scope.md R9: of all operations the host can issue five, and between commands a step of a machine
that only the host speaks to is one of them, or leaves the machine as it is. -/
def Obligations.OnlyTheFiveCommandsComeFromOutside : Prop :=
  ∀ s t : State, s.HostOnly → s.phase = .idle → step s = .next t →
    (s.port = [] ∧ t = s) ∨
    ∃ p rest i, s.port = p :: rest ∧ decode p.bytes = .ok i ∧ exec i (s.setPort rest) = .next t ∧
      (i = .reset ∨ i = .connect ∨ i = .tickFast ∨ i = .tickSlow ∨ i = .shutdown)

/-- The machine after reset is between commands, and nobody has spoken to it. -/
def Obligations.ResetIsBetweenCommands : Prop := State.reset.HostOnly ∧ State.reset.phase = .idle ∧ State.reset.k = 0

/-- 44_scheduler.md R192, and the spec's decision D7 (PHASE is never observable from outside a command): where only the host
speaks to the machine, every step that begins between commands ends between commands. -/
def Obligations.HostRunsStayBetweenCommands : Prop :=
  ∀ s t : State, s.HostOnly → s.phase = .idle → s.k = 0 → step s = .next t → t.HostOnly ∧ t.phase = .idle ∧ t.k = 0

/-- 41_frame_transfer.md R130, 44_scheduler.md R192, whoever presents what: a step inside a pull that goes on is the transaction
that is due, moving the position forward or to (Idle, 0); or RESET (70_reset_and_hazards.md R230; log 15); or a pure
function, which touches no register and no port of the block. -/
def Obligations.NothingRunsBetweenTheStepsOfAPull : Prop :=
  ∀ s t : State, s.phase ≠ .idle → step s = .next t →
    (t.toBlock = s.toBlock ∧ t.trace = s.trace) ∨ s.presented = some .reset ∨
    ∃ h l, s.handle = some h ∧ t.trace = s.trace ++ [l] ∧ t.conn = s.conn ∧ t.handle = s.handle ∧
      ((s.phase = .writePhase ∧ t.fb = s.fb ∧ ∃ a, l = Label.write h (requestFor s.k.val) a) ∨
        (s.phase = .readPhase ∧ ∃ a, l = Label.read h 2000 a)) ∧
      ((t.phase = s.phase ∧ t.k.val = s.k.val + 1) ∨ (t.phase = .idle ∧ t.k = 0) ∨
        (s.phase = .writePhase ∧ s.k.val = 25 ∧ t.phase = .readPhase ∧ t.k = 0))

/-! The packet codec (40_codec.md). -/

/-- R110: the sum modulo 2^16 of the little-endian words, word 1 skipped; the result alone changes. -/
def Obligations.Checksum16SumsTheWords : Prop :=
  ∀ (pkt : Packet) (s : State), exec (.checksum16 pkt) s = .next (s.setResult (.word
    ((List.range 512).foldl (fun c i => if i = 1 then c else c + le16 (pkt.byte (2 * i)) (pkt.byte (2 * i + 1))) 0)))

/-- R111 and R81: every byte of the request, and its checksum field; the result alone changes. -/
def Obligations.BuildRequestLaysOutThePacket : Prop :=
  ∀ (offset : U32) (s : State), ∃ pkt : Packet,
    exec (.buildRequest offset) s = .next (s.setResult (.packet pkt)) ∧
    [pkt.byte 0, pkt.byte 1] = Config.params.opcodeBytes.toList ∧
    le16 (pkt.byte 2) (pkt.byte 3) = checksum16 pkt ∧
    [pkt.byte 4, pkt.byte 5, pkt.byte 6, pkt.byte 7] = Config.params.subcmdBytes.toList ∧
    le32 (pkt.byte 8) (pkt.byte 9) (pkt.byte 10) (pkt.byte 11) = offset ∧
    ∀ i, 12 ≤ i → i < 1024 → pkt.byte i = 0#8

/-- R112, an inference of the spec's own: the closed form of the stored checksum, for every value of the constants. -/
def Obligations.RequestChecksumClosedForm : Prop :=
  ∀ (p : Params) (offset : U32),
    le16 ((buildRequest p offset).byte 2) ((buildRequest p offset).byte 3) =
      le16 p.opcodeBytes[0] p.opcodeBytes[1] + le16 p.subcmdBytes[0] p.subcmdBytes[1]
        + le16 p.subcmdBytes[2] p.subcmdBytes[3] + offset.extractLsb' 0 16 + offset.extractLsb' 16 16

/-- R113: the predicate compares the stored field with the sum, holds of every built request, and a change of one byte
outside bytes 2 and 3 makes it false; the result alone changes. -/
def Obligations.CheckRequestValidatesTheChecksum : Prop :=
  (∀ (pkt : Packet) (s : State), exec (.checkRequest pkt) s =
    .next (s.setResult (.flag (decide (le16 (pkt.byte 2) (pkt.byte 3) = checksum16 pkt))))) ∧
  (∀ (p : Params) (offset : U32), checkRequest (buildRequest p offset) = true) ∧
  ∀ (pkt pkt' : Packet) (j : Nat), checkRequest pkt = true → j < 1024 → j ≠ 2 → j ≠ 3 →
    (∀ i, i ≠ j → pkt'.byte i = pkt.byte i) → pkt'.byte j ≠ pkt.byte j → checkRequest pkt' = false

/-- R114: the payload is `rsp[12 .. 12 + n)` with `n = clamp(payload_length, 8, 1020) − 8`, inside the packet for every
response; the result alone changes. -/
def Obligations.ExtractPayloadSlicesTheResponse : Prop :=
  ∀ (rsp : Packet) (s : State), ∃ p : List Byte,
    exec (.extractPayload rsp) s = .next (s.setResult (.bytes p)) ∧
    p.length = max 8 (min ((rsp.byte 4).toNat + 256 * (rsp.byte 5).toNat) 1020) - 8 ∧
    12 + p.length ≤ 1024 ∧ ∀ j, j < p.length → p[j]? = some (rsp.byte (12 + j))

/-- R87, an inference of the spec's own: the requests this block could have sent are the packets of BUILD_REQUEST, and the
offset is read back from bytes 8 to 11. -/
def Obligations.RecognisedRequestsAreTheBuiltOnes : Prop :=
  (∀ (p : Params) (pkt : Packet), isRequest p pkt = true ↔ ∃ offset, pkt = buildRequest p offset) ∧
  ∀ (p : Params) (offset : U32), requestOffset (buildRequest p offset) = offset

/-! Framebuffer operations (42_framebuffer.md). -/

/-- R160: row `r` becomes the former row `79 − r`, byte for byte; no other byte and no other state changes. -/
def Obligations.RowReverseFlipsTheRows : Prop :=
  ∀ s : State, ∃ m : Memory, exec .rowReverse s = .next ((s.setFb m).setResult .nothing) ∧
    (∀ r c, r < 80 → c < 320 → readByte m (320 * r + c) = readByte s.fb (320 * (79 - r) + c)) ∧
    ∀ a, 25600 ≤ a → readByte m a = readByte s.fb a

/-- R161: an involution; a permutation of the 25600 byte positions, the same for every framebuffer; the all-zero framebuffer
stays all zero. -/
def Obligations.RowReverseIsAnInvolution : Prop :=
  (∀ m : Memory, m.wf → rowReverse (rowReverse m) = m) ∧
  (∀ (m : Memory) (a : Nat), readByte (rowReverse (rowReverse m)) a = readByte m a) ∧
  (∃ p : Equiv.Perm (Fin 25600), ∀ (m : Memory) (a : Fin 25600),
    readByte (rowReverse m) a.val = readByte m (p a).val) ∧
  ∀ m : Memory, (∀ a, readByte m a = 0#8) → ∀ a, readByte (rowReverse m) a = 0#8

/-- The pseudocode of R162: every byte becomes 0x00, and nothing else changes. -/
def Obligations.FbZeroClearsEveryByte : Prop :=
  ∀ s : State, ∃ m : Memory, exec .fbZero s = .next ((s.setFb m).setResult .nothing) ∧ ∀ a, readByte m a = 0#8

/-- R163: the 25600 bytes of FB, and nothing else changes. That no display reads during a pull is the step's (log 28, after
70_reset_and_hazards.md R236). -/
def Obligations.SnapshotReadsEveryByte : Prop :=
  ∀ s : State, ∃ bs : List Byte, exec .fbSnapshot s = .next (s.setResult (.bytes bs)) ∧ bs.length = 25600 ∧
    ∀ a, a < 25600 → bs[a]? = some (readByte s.fb a)

/-- The pixel view (10_state.md R24, the spec's decision D10; 20_memory.md R54): row `r`, column `c` stands at byte address
`320r + 2c`, low byte first, red in bits 15:11, green in 10:5, blue in 4:0. -/
def Obligations.PixelViewReadsLittleEndian : Prop :=
  (∀ (m : Memory) (r c : Nat),
    pixelAt m r c = le16 (readByte m (320 * r + 2 * c)) (readByte m (320 * r + 2 * c + 1))) ∧
  ∀ v : U16, (red v).toNat = v.toNat / 2048 ∧ (green v).toNat = v.toNat / 32 % 64 ∧ (blue v).toNat = v.toNat % 32

/-! Frame transfer (41_frame_transfer.md). -/

/-- R132, in the position registers of the spec's decision D7: the position becomes (WritePhase, 0); FB and every port stay. -/
def Obligations.PullStartEntersTheWritePhase : Prop :=
  ∀ (s : State) (h : Handle), s.conn = .connected → s.handle = some h → s.phase = .idle →
    exec .pullStart s = .next ((s.setPc .writePhase 0).setResult .nothing)

/-- R133, in the position registers of the spec's decision D7: the request for chunk `k` goes to `T.write`, and the answer selects the next position or the error. -/
def Obligations.WriteStepSendsTheRequest : Prop :=
  ∀ (s : State) (h : Handle), s.phase = .writePhase → s.handle = some h →
    (s.writeAnswer = .ok → ∀ k', k'.val = s.k.val + 1 → exec .writeStep s =
      .next (((s.tWrite h (requestFor s.k.val)).setPc .writePhase k').setResult .nothing)) ∧
    (s.writeAnswer = .ok → s.k.val = 25 → exec .writeStep s =
      .next (((s.tWrite h (requestFor s.k.val)).setPc .readPhase 0).setResult .nothing)) ∧
    (s.writeAnswer = .error → exec .writeStep s =
      .next (((s.tWrite h (requestFor s.k.val)).setPc .idle 0).setResult (.raised (.writeFailed s.k))))

/-- R136 with the copy's guard of R138 (the spec's decision D9): a response for chunk `k` writes its first
`min(n, 25600 − 1012k)` payload bytes at `1012k` and no other byte; the last chunk then reverses the rows and ends the pull;
a failed read drops to Idle with FB as it was. -/
def Obligations.ReadStepCopiesTheChunk : Prop :=
  ∀ (s : State) (h : Handle), s.phase = .readPhase → s.handle = some h →
    (∀ rsp, s.readAnswer = .response rsp → ∃ m : Memory,
      (∀ a, readByte m a =
        if 1012 * s.k.val ≤ a ∧ a < 1012 * s.k.val + min (payloadBytes rsp) (25600 - 1012 * s.k.val)
        then rsp.byte (12 + (a - 1012 * s.k.val)) else readByte s.fb a) ∧
      (∀ k', k'.val = s.k.val + 1 → exec .readStep s =
        .next ((((s.tRead h).setFb m).setPc .readPhase k').setResult .nothing)) ∧
      (s.k.val = 25 → ∃ m' : Memory, exec .readStep s =
        .next ((((s.tRead h).setFb m').setPc .idle 0).setResult (.pulled .ok)) ∧
        (∀ r c, r < 80 → c < 320 → readByte m' (320 * r + c) = readByte m (320 * (79 - r) + c)) ∧
        ∀ a, 25600 ≤ a → readByte m' a = readByte m a)) ∧
    (s.readAnswer = .errorOrTimeout → exec .readStep s =
      .next (((s.tRead h).setPc .idle 0).setResult (.raised (.readFailedOrTimeout s.k))))

/-- The response on the wire (30_encoding.md R86; log 20): RSP.READ_FB ends where READ_STEP ends when the transport answers
with that packet. -/
def Obligations.ResponsePacketActsAsReadStep : Prop :=
  ∀ (s : State) (h : Handle) (rsp : Packet), s.phase = .readPhase → s.handle = some h →
    ∃ t, exec (.rspReadFb rsp) s = .next t ∧ exec .readStep { s with reads := .response rsp :: s.reads } = .next t

/-- The request on the wire (30_encoding.md R86; log 20): REQ.READ_FB of the chunk that is due is WRITE_STEP, and any other
packet is refused. -/
def Obligations.RequestPacketActsAsWriteStep : Prop :=
  ∀ (s : State) (h : Handle), s.phase = .writePhase → s.handle = some h →
    (∃ t, exec (.reqReadFb (requestFor s.k.val)) s = .next t ∧ exec .writeStep s = .next t) ∧
    ∀ pkt, pkt ≠ requestFor s.k.val → exec (.reqReadFb pkt) s = .refused .notTheRequestDue

/-- 30_encoding.md R82 and 41_frame_transfer.md R143, inferences of the spec's own: two responses that agree on bytes 4, 5 and
from byte 12 on leave the same block and the same result. -/
def Obligations.UnnamedResponseBytesHaveNoInfluence : Prop :=
  ∀ (s t t' : State) (rsp rsp' : Packet), (∀ i, i = 4 ∨ i = 5 ∨ 12 ≤ i → rsp.byte i = rsp'.byte i) →
    exec (.rspReadFb rsp) s = .next t → exec (.rspReadFb rsp') s = .next t' →
    t.toBlock = t'.toBlock ∧ t.result = t'.result

/-- R130, R140 (an inference of the spec's own): PULL_FRAME ends for every answer, after at most 52 transactions, all writes
or reads on the held handle; CONN, HANDLE and every other port stay, the position ends at (Idle, 0), no event is emitted. -/
def Obligations.PullFrameAlwaysEnds : Prop :=
  ∀ (s : State) (h : Handle), s.conn = .connected → s.handle = some h → s.phase = .idle →
    ∃ m ws rs n run r, exec .pullFrame s = .next
      { s with fb := m, phase := .idle, k := 0, writes := ws, reads := rs, asked := n, trace := s.trace ++ run,
               result := .pulled r } ∧
      run.length ≤ 52 ∧
      ∀ l ∈ run, (∃ k a, k < 26 ∧ l = Label.write h (requestFor k) a) ∨ ∃ a, l = Label.read h 2000 a

/-- R134, an inference of the spec's own: a write failure at chunk `j` leaves FB as it was, after `j + 1` writes and no
read. -/
def Obligations.PullFrameWriteFailureLeavesFb : Prop :=
  ∀ (s : State) (h : Handle) (j : Nat) (ws : List WriteAnswer), s.conn = .connected → s.handle = some h →
    s.phase = .idle → j < 26 → s.writes = List.replicate j .ok ++ .error :: ws →
    exec .pullFrame s = .next
      { s with phase := .idle, k := 0, writes := ws, asked := s.asked + (j + 1),
               trace := s.trace ++ writeRun h j ++ [.write h (requestFor j) .error], result := .pulled .errWrite }

/-- R137, an inference of the spec's own: a read failure at chunk `j`, after 26 writes and `j + 1` reads: chunks below `j` hold
their payloads and otherwise the old bytes, the rest of FB is as it was, and the rows are not reversed. -/
def Obligations.PullFrameReadFailureKeepsEarlierChunks : Prop :=
  ∀ (s : State) (h : Handle) (rsps : List Packet) (ws : List WriteAnswer) (rs : List ReadAnswer),
    s.conn = .connected → s.handle = some h → s.phase = .idle → rsps.length < 26 →
    s.writes = List.replicate 26 .ok ++ ws → s.reads = rsps.map .response ++ .errorOrTimeout :: rs →
    ∃ m : Memory, exec .pullFrame s = .next
      { s with fb := m, phase := .idle, k := 0, writes := ws, reads := rs, asked := s.asked + (27 + rsps.length),
               trace := s.trace ++ writeRun h 26 ++ readRun h rsps ++ [.read h 2000 .errorOrTimeout],
               result := .pulled .errRead } ∧
      (∀ k rsp i, rsps[k]? = some rsp → i < 1012 → readByte m (1012 * k + i) =
        if i < min (payloadBytes rsp) (25600 - 1012 * k) then rsp.byte (12 + i) else readByte s.fb (1012 * k + i)) ∧
      ∀ a, 1012 * rsps.length ≤ a → readByte m a = readByte s.fb a

/-- R140, R145, 60_exceptions.md R203 (the rule R140 is an inference of the spec's own, the cut to fit its decision D9): 26
accepted writes and 26 responses are a pull that succeeds, whatever the responses hold. Byte `a` of the stream is byte
`a mod 1012` of the payload of response `a div 1012` where that payload is long enough, and otherwise the old byte; the rows of
the stream are then reversed. -/
def Obligations.PullFrameTakesEveryResponse : Prop :=
  ∀ (s : State) (h : Handle) (rsps : List Packet) (ws : List WriteAnswer) (rs : List ReadAnswer),
    s.conn = .connected → s.handle = some h → s.phase = .idle → rsps.length = 26 →
    s.writes = List.replicate 26 .ok ++ ws → s.reads = rsps.map .response ++ rs →
    ∃ m : Memory, exec .pullFrame s = .next
      { s with fb := m, phase := .idle, k := 0, writes := ws, reads := rs, asked := s.asked + 52,
               trace := s.trace ++ writeRun h 26 ++ readRun h rsps, result := .pulled .ok } ∧
      (∀ r c a rsp, r < 80 → c < 320 → a = 320 * (79 - r) + c → rsps[a / 1012]? = some rsp →
        readByte m (320 * r + c) =
          if a % 1012 < payloadBytes rsp then rsp.byte (12 + a % 1012) else readByte s.fb a) ∧
      ∀ a, 25600 ≤ a → readByte m a = readByte s.fb a

/-- R142: a fast tick whose 26 writes are accepted and whose 26 reads give full payloads leaves the frame the payloads carry,
its rows reversed, and reports it; the link stays. A payload of the last response beyond 300 bytes is cut, the spec's
decision D9; the order of the answers is the transport's (20_memory.md R62). -/
def Obligations.FullFrameIsReassembled : Prop :=
  ∀ (s : State) (h : Handle) (rsps : List Packet) (ws : List WriteAnswer) (rs : List ReadAnswer),
    s.inService = true → s.conn = .connected → s.handle = some h → s.phase = .idle → rsps.length = 26 →
    (∀ k rsp, rsps[k]? = some rsp → (if k < 25 then 1012 else 300) ≤ payloadBytes rsp) →
    s.writes = List.replicate 26 .ok ++ ws → s.reads = rsps.map .response ++ rs →
    ∃ m : Memory, exec .tickFast s = .next
      { s with fb := m, phase := .idle, k := 0, writes := ws, reads := rs, asked := s.asked + 52,
               trace := s.trace ++ [.command .tickFast] ++ writeRun h 26 ++ readRun h rsps ++ [.frameReady (snapshot m)],
               result := .nothing } ∧
      ∀ r c rsp, r < 80 → c < 320 → rsps[(320 * (79 - r) + c) / 1012]? = some rsp →
        readByte m (320 * r + c) = rsp.byte (12 + (320 * (79 - r) + c) % 1012)

/-- R141, R92 (inferences of the spec's own): after PULL_START, with nothing presented, the steps of the pull reach Idle within
52 steps, with the same block and the same transactions as PULL_FRAME as one function, and a result that stands for its
result. -/
def Obligations.SequencerRefinesPullFrame : Prop :=
  ∀ (s : State) (h : Handle), s.conn = .connected → s.handle = some h → s.phase = .idle → s.port = [] →
    ∃ n t u r, n ≤ 52 ∧ exec .pullStart s = .next u ∧ core.run n u = .next t ∧ t.phase = .idle ∧
      exec .pullFrame s = .next (t.setResult (.pulled r)) ∧
      (t.result = .pulled r ∨ ∃ e, t.result = .raised e ∧ e.pullResult = some r)

/-! Link control (43_link_control.md). -/

/-- R171: the path of the first match in the transport's order, or none; the result alone changes. -/
def Obligations.SelectDevicePicksTheFirstMatch : Prop :=
  ∀ (ds : List Descriptor) (s : State),
    ((∀ d ∈ ds, d.usagePage ≠ Config.params.usagePage) →
      exec (.selectDevice ds) s = .next (s.setResult (.path none))) ∧
    ∀ before d after, ds = before ++ d :: after → (∀ e ∈ before, e.usagePage ≠ Config.params.usagePage) →
      d.usagePage = Config.params.usagePage → exec (.selectDevice ds) s = .next (s.setResult (.path (some d.path)))

/-- R172, where its two callers run it (R173, R175; log 19): a handle still held is closed first; no match, and a match that does
not open, leave CONN and FB and hold no handle; success zeroes FB, holds the new handle and sets Connected. -/
def Obligations.OpenAttemptHasThreeOutcomes : Prop :=
  ∀ s : State, s.inService = true → s.phase = .idle → s.conn ≠ .connected → ∃ closed : List Label,
    (s.handle = none → closed = []) ∧ (∀ h, s.handle = some h → closed = [.close h]) ∧
    (selectDevice Config.params.usagePage s.enumAnswer = none → exec .openAttempt s = .next
      { s with handle := none, enumerations := s.enumerations.tail, asked := s.asked + 1,
               trace := s.trace ++ closed ++ [.enumerate Config.params.vendorId Config.params.productId s.enumAnswer],
               result := .attempted (.failure .enumerationFailed) }) ∧
    ∀ path, selectDevice Config.params.usagePage s.enumAnswer = some path →
      (s.tEnumerate.openAnswer = .error → exec .openAttempt s = .next
        { s with handle := none, enumerations := s.enumerations.tail, opens := s.opens.tail, asked := s.asked + 2,
                 trace := s.trace ++ closed ++ [.enumerate Config.params.vendorId Config.params.productId s.enumAnswer,
                   .openPath path .error],
                 result := .attempted (.failure .openFailed) }) ∧
      ∀ h, s.tEnumerate.openAnswer = .handle h → exec .openAttempt s = .next
        { s with conn := .connected, handle := some h, fb := [], enumerations := s.enumerations.tail,
                 opens := s.opens.tail, asked := s.asked + 2,
                 trace := s.trace ++ closed ++ [.enumerate Config.params.vendorId Config.params.productId s.enumAnswer,
                   .openPath path (.handle h)],
                 result := .attempted .success }

/-- R173 (the spec's decision D11; no handle is held in Disconnected by 10_state.md R22): the attempt ends in Connected with a
zeroed FB and the new handle, or in Reconnecting with FB and HANDLE as they were; either way CONN_CHANGED with the new state
comes last (D12). -/
def Obligations.ConnectEndsConnectedOrReconnecting : Prop :=
  ∀ s : State, s.inService = true → s.phase = .idle → s.conn = .disconnected → s.handle = none →
    (selectDevice Config.params.usagePage s.enumAnswer = none → exec .connect s = .next
      { s with conn := .reconnecting, enumerations := s.enumerations.tail, asked := s.asked + 1,
               trace := s.trace ++ [.command .connect, .enumerate Config.params.vendorId Config.params.productId s.enumAnswer, .connChanged .reconnecting],
               result := .nothing }) ∧
    ∀ path, selectDevice Config.params.usagePage s.enumAnswer = some path →
      (s.tEnumerate.openAnswer = .error → exec .connect s = .next
        { s with conn := .reconnecting, enumerations := s.enumerations.tail, opens := s.opens.tail, asked := s.asked + 2,
                 trace := s.trace ++ [.command .connect, .enumerate Config.params.vendorId Config.params.productId s.enumAnswer,
                   .openPath path .error, .connChanged .reconnecting],
                 result := .nothing }) ∧
      ∀ h, s.tEnumerate.openAnswer = .handle h → exec .connect s = .next
        { s with conn := .connected, handle := some h, fb := [], enumerations := s.enumerations.tail,
                 opens := s.opens.tail, asked := s.asked + 2,
                 trace := s.trace ++ [.command .connect, .enumerate Config.params.vendorId Config.params.productId s.enumAnswer,
                   .openPath path (.handle h), .connChanged .connected],
                 result := .nothing }

/-- R174 (the event is the spec's decision D12): the handle closed, FB zeroed, Reconnecting, and nothing else. -/
def Obligations.IoFailureClosesAndZeroes : Prop :=
  ∀ (s : State) (h : Handle), s.conn = .connected → s.handle = some h → s.phase = .idle →
    exec .ioFailure s = .next
      { s with conn := .reconnecting, handle := none, fb := [],
               trace := s.trace ++ [.close h, .connChanged .reconnecting], result := .nothing }

/-- R175 (the event is the spec's decision D12; no handle is held in Reconnecting by 10_state.md R22): success connects with a
fresh handle and a zeroed FB; a failure changes nothing of the block and emits nothing. -/
def Obligations.ReconnectAttemptConnectsOrChangesNothing : Prop :=
  ∀ s : State, s.conn = .reconnecting → s.handle = none → s.phase = .idle →
    (selectDevice Config.params.usagePage s.enumAnswer = none → exec .reconnectAttempt s = .next
      { s with enumerations := s.enumerations.tail, asked := s.asked + 1,
               trace := s.trace ++ [.enumerate Config.params.vendorId Config.params.productId s.enumAnswer],
               result := .attempted (.failure .enumerationFailed) }) ∧
    ∀ path, selectDevice Config.params.usagePage s.enumAnswer = some path →
      (s.tEnumerate.openAnswer = .error → exec .reconnectAttempt s = .next
        { s with enumerations := s.enumerations.tail, opens := s.opens.tail, asked := s.asked + 2,
                 trace := s.trace ++ [.enumerate Config.params.vendorId Config.params.productId s.enumAnswer,
                   .openPath path .error],
                 result := .attempted (.failure .openFailed) }) ∧
      ∀ h, s.tEnumerate.openAnswer = .handle h → exec .reconnectAttempt s = .next
        { s with conn := .connected, handle := some h, fb := [], enumerations := s.enumerations.tail,
                 opens := s.opens.tail, asked := s.asked + 2,
                 trace := s.trace ++ [.enumerate Config.params.vendorId Config.params.productId s.enumAnswer,
                   .openPath path (.handle h), .connChanged .connected],
                 result := .attempted .success }

/-- R177 (the spec's decision D21): a held handle is closed, CONN becomes Disconnected, FB stays, no event; and then no command
but RESET is accepted (log 3). -/
def Obligations.ShutdownClosesAndLeavesOnlyReset : Prop :=
  ∀ s : State, s.inService = true → s.phase = .idle →
    ∃ t closed, exec .shutdown s = .next t ∧
      (s.handle = none → closed = []) ∧ (∀ h, s.handle = some h → closed = [Label.close h]) ∧
      t = { s with conn := .disconnected, handle := none, inService := false,
                   trace := s.trace ++ .command .shutdown :: closed, result := .nothing } ∧
      exec .connect t = .refused .outOfService ∧ exec .tickFast t = .refused .outOfService ∧
      exec .tickSlow t = .refused .outOfService ∧ exec .shutdown t = .refused .outOfService

/-! The ticks (44_scheduler.md). -/

/-- R190, R195 where CONN is not Connected: exactly REPAINT, and nothing else. -/
def Obligations.TickFastRepaintsWhenNotConnected : Prop :=
  ∀ s : State, s.inService = true → s.phase = .idle → s.conn ≠ .connected →
    exec .tickFast s = .next { s with trace := s.trace ++ [.command .tickFast, .repaint], result := .nothing }

/-- R190 where CONN is Connected, for every answer of the transport: the tick's transactions, its FB and its branch are those of
PULL_FRAME. After `Ok` it adds FRAME_READY with that FB and stays Connected; only after an error of the pull does it enter the
failure state, whatever the responses held (43_link_control.md R174). What CONN_CHANGED follows, and that no REPAINT comes in
such a tick, are the spec's decisions D12 and D13 (log 14). -/
def Obligations.TickFastWhenConnectedEnds : Prop :=
  ∀ (s : State) (h : Handle), s.inService = true → s.phase = .idle → s.conn = .connected → s.handle = some h →
    ∃ t u r run, exec .tickFast s = .next t ∧ exec .pullFrame (s.log (.command .tickFast)) = .next u ∧
      u.result = .pulled r ∧ u.trace = s.trace ++ .command .tickFast :: run ∧
      t.phase = .idle ∧ t.k = 0 ∧ t.inService = true ∧ t.port = s.port ∧
      t.result = .nothing ∧ t.enumerations = s.enumerations ∧ t.opens = s.opens ∧
      (∀ l ∈ run, (∃ k a, k < 26 ∧ l = Label.write h (requestFor k) a) ∨ ∃ a, l = Label.read h 2000 a) ∧
      ((r = .ok ∧ t.conn = .connected ∧ t.handle = some h ∧
          t = { u with trace := u.trace ++ [.frameReady (snapshot u.fb)], result := .nothing }) ∨
        (r ≠ .ok ∧ t = { u with conn := .reconnecting, handle := none, fb := [],
                                trace := u.trace ++ [.close h, .connChanged .reconnecting], result := .nothing }))

/-- 60_exceptions.md R208: after a failed pull the block is in one fixed state, whichever chunk failed and whichever error it
was; the handle is closed exactly once, last but for CONN_CHANGED. -/
def Obligations.FailedPullEntersOneFixedState : Prop :=
  ∀ (s : State) (h : Handle), s.inService = true → s.phase = .idle → s.conn = .connected → s.handle = some h →
    ((∃ j ws, j < 26 ∧ s.writes = List.replicate j .ok ++ .error :: ws) ∨
      ∃ (ws : List WriteAnswer) (rsps : List Packet) (rs : List ReadAnswer), s.writes = List.replicate 26 .ok ++ ws ∧ rsps.length < 26 ∧
        s.reads = rsps.map .response ++ .errorOrTimeout :: rs) →
    ∃ t run, exec .tickFast s = .next t ∧
      t.toBlock = { conn := .reconnecting, handle := none, fb := [], phase := .idle, k := 0 } ∧
      t.trace = s.trace ++ .command .tickFast :: run ++ [.close h, .connChanged .reconnecting] ∧
      ∀ l ∈ run, (∃ k a, k < 26 ∧ l = Label.write h (requestFor k) a) ∨ ∃ a, l = Label.read h 2000 a

/-- R191, R195 where CONN is not Reconnecting: nothing at all but the command itself. -/
def Obligations.TickSlowDoesNothingWhenNotReconnecting : Prop :=
  ∀ s : State, s.inService = true → s.phase = .idle → s.conn ≠ .reconnecting →
    exec .tickSlow s = .next { s with trace := s.trace ++ [.command .tickSlow], result := .nothing }

/-- R191 in Reconnecting (no handle is held there by 10_state.md R22): a success emits CONN_CHANGED(Connected) and then
FRAME_READY with 25600 zero bytes; a failure changes nothing of the block and emits nothing. -/
def Obligations.TickSlowReconnects : Prop :=
  ∀ s : State, s.inService = true → s.phase = .idle → s.conn = .reconnecting → s.handle = none →
    (selectDevice Config.params.usagePage s.enumAnswer = none → exec .tickSlow s = .next
      { s with enumerations := s.enumerations.tail, asked := s.asked + 1,
               trace := s.trace ++ [.command .tickSlow, .enumerate Config.params.vendorId Config.params.productId s.enumAnswer],
               result := .nothing }) ∧
    ∀ path, selectDevice Config.params.usagePage s.enumAnswer = some path →
      (s.tEnumerate.openAnswer = .error → exec .tickSlow s = .next
        { s with enumerations := s.enumerations.tail, opens := s.opens.tail, asked := s.asked + 2,
                 trace := s.trace ++ [.command .tickSlow, .enumerate Config.params.vendorId Config.params.productId s.enumAnswer,
                   .openPath path .error],
                 result := .nothing }) ∧
      ∀ h, s.tEnumerate.openAnswer = .handle h → exec .tickSlow s = .next
        { s with conn := .connected, handle := some h, fb := [], enumerations := s.enumerations.tail,
                 opens := s.opens.tail, asked := s.asked + 2,
                 trace := s.trace ++ [.command .tickSlow, .enumerate Config.params.vendorId Config.params.productId s.enumAnswer,
                   .openPath path (.handle h), .connChanged .connected,
                   .frameReady (List.replicate 25600 0#8)],
                 result := .nothing }

/-- R176, R179 (an inference of the spec's own): any number of slow ticks whose opens fail leave the block exactly as it was
and open no handle. -/
def Obligations.FailedRetriesAccumulateNothing : Prop :=
  ∀ (n : Nat) (s : State) (frames : List Presented) (os : List OpenAnswer),
    s.inService = true → s.phase = .idle → s.conn = .reconnecting → s.handle = none →
    s.port = List.replicate n ⟨.host, encode .tickSlow⟩ ++ frames → s.opens = List.replicate n .error ++ os →
    ∃ t, core.run n s = .next t ∧ t.toBlock = s.toBlock ∧ t.port = frames ∧ t.inService = true ∧
      ∀ h, openedCount h t.trace = openedCount h s.trace ∧ closedCount h t.trace = closedCount h s.trace

/-! Reset (70_reset_and_hazards.md). -/

/-- R230 (the spec's decisions D6, D7, D21): in every state the five registers take their reset values, the block is in
service, and nothing else changes; no transaction and no event. -/
def Obligations.ResetSetsEveryRegister : Prop :=
  ∀ s : State, exec .reset s = .next
    { s with conn := .disconnected, handle := none, fb := [], phase := .idle, k := 0, inService := true,
             trace := s.trace ++ [.command .reset], result := .nothing }

/-- 10_state.md R34: CONN after reset is the document's; HANDLE, FB, PHASE and K are the spec's derivation and decisions D6,
D7. -/
def Obligations.StateAfterResetHasTheResetValues : Prop :=
  State.reset.conn = .disconnected ∧ State.reset.handle = none ∧ (∀ a, readByte State.reset.fb a = 0#8) ∧
  State.reset.phase = .idle ∧ State.reset.k = 0

/-! Where an operation is not accepted. -/

/-- 44_scheduler.md R193, 43_link_control.md R173 and R177 (the spec's decisions D11, D14, D21; log 3, log 13, log 15): the four
commands other than RESET, and the open attempt inside them (log 19), while busy or out of service; and CONNECT out of
Disconnected. -/
def Obligations.UntimelyCommandsAreRefused : Prop :=
  ∀ (s : State) (i : Instr), i = .connect ∨ i = .tickFast ∨ i = .tickSlow ∨ i = .shutdown ∨ i = .openAttempt →
    (s.inService = true → s.phase ≠ .idle → exec i s = .refused .busy) ∧
    (s.inService = false → exec i s = .refused .outOfService) ∧
    (i = .connect → s.inService = true → s.phase = .idle → s.conn ≠ .disconnected →
      exec i s = .refused .alreadyConnecting)

/-- The Precondition lines of 41_frame_transfer.md R132, R133, R136 and 43_link_control.md R174, R175 (log 17), the
place of the open attempt out of Connected (log 19), and the one fault (log 18). -/
def Obligations.UnmetPreconditionsStop : Prop :=
  ∀ s : State,
    (¬(s.conn = .connected ∧ s.phase = .idle ∧ s.handle.isSome = true) →
      exec .pullFrame s = .refused .preconditionNotMet ∧ exec .pullStart s = .refused .preconditionNotMet ∧
      exec .ioFailure s = .refused .preconditionNotMet) ∧
    (¬(s.phase = .writePhase ∧ s.handle.isSome = true) → exec .writeStep s = .refused .preconditionNotMet ∧
      ∀ pkt, exec (.reqReadFb pkt) s = .refused .preconditionNotMet) ∧
    (¬(s.phase = .readPhase ∧ s.handle.isSome = true) → exec .readStep s = .refused .preconditionNotMet ∧
      ∀ rsp, exec (.rspReadFb rsp) s = .refused .preconditionNotMet) ∧
    (¬(s.conn = .reconnecting ∧ s.phase = .idle) → exec .reconnectAttempt s = .refused .preconditionNotMet) ∧
    (s.inService = true → s.phase = .idle → s.conn = .connected → exec .openAttempt s = .refused .preconditionNotMet) ∧
    (s.inService = true → s.phase = .idle → s.conn = .connected → s.handle = none →
      exec .tickFast s = .fault .handleMissing)

/-! The whole machine. -/

/-- The machine after reset is sound. -/
def Obligations.ResetIsSound : Prop := State.reset.Sound

/-- Every operation, and so every step, keeps the state sound: HANDLE held exactly in Connected after every operation of the
block (10_state.md R22), K 0 while Idle (R25), FB canonical and inside its 25600 bytes (20_memory.md R60). -/
def Obligations.StepKeepsSound : Prop :=
  (∀ (i : Instr) (s t : State), s.Sound → exec i s = .next t → t.Sound) ∧
  ∀ s t : State, s.Sound → step s = .next t → t.Sound

/-- Nothing has been opened at reset. -/
def Obligations.ResetHandlesBalanced : Prop := State.reset.HandlesBalanced

/-- 43_link_control.md R178, R179: after every step each handle ever opened was closed as often, but for the one in HANDLE. The
premise is R230's: a RESET is not given while a handle is held. -/
def Obligations.StepKeepsHandlesBalanced : Prop :=
  ∀ s t : State, s.HandlesBalanced → (s.presented = some .reset → s.handle = none) → step s = .next t →
    t.HandlesBalanced

/-- 93_implementation_defined.md part 1, 60_exceptions.md R204: from a sound state no step ends in a fault. -/
def Obligations.SoundStepNeverFaults : Prop := ∀ (s : State) (f : Fault), s.Sound → step s ≠ .fault f

/-- 42_framebuffer.md R165: an operation that is none of those that copy a chunk, reverse rows, zero or reset leaves FB as it
is, in every state. -/
def Obligations.OnlyTheListedOperationsWriteFb : Prop :=
  ∀ (i : Instr) (s t : State), exec i s = .next t →
    i ≠ .pullFrame → i ≠ .readStep → (∀ rsp, i ≠ .rspReadFb rsp) → i ≠ .rowReverse → i ≠ .fbZero →
    i ≠ .connect → i ≠ .openAttempt → i ≠ .ioFailure → i ≠ .reconnectAttempt → i ≠ .tickFast → i ≠ .tickSlow →
    i ≠ .reset → t.fb = s.fb

/-- 10_state.md R21 and R22: an operation that is none of link control, the ticks and RESET leaves CONN and HANDLE as they are,
in every state. -/
def Obligations.OnlyLinkControlWritesConnAndHandle : Prop :=
  ∀ (i : Instr) (s t : State), exec i s = .next t →
    i ≠ .connect → i ≠ .openAttempt → i ≠ .ioFailure → i ≠ .reconnectAttempt → i ≠ .shutdown → i ≠ .tickFast →
    i ≠ .tickSlow → i ≠ .reset → t.conn = s.conn ∧ t.handle = s.handle

/-- 43_link_control.md R170: the edges between the three states. Disconnected is entered by SHUTDOWN and RESET alone,
Reconnecting by a failure or a failed CONNECT alone, Connected by an attempt alone. -/
def Obligations.ConnMovesAlongTheDiagram : Prop :=
  ∀ (i : Instr) (s t : State), exec i s = .next t → t.conn ≠ s.conn →
    (t.conn = .disconnected → i = .shutdown ∨ i = .reset) ∧
    (t.conn = .reconnecting →
      (s.conn = .connected ∧ (i = .tickFast ∨ i = .ioFailure)) ∨ (s.conn = .disconnected ∧ i = .connect)) ∧
    (t.conn = .connected →
      (s.conn = .disconnected ∧ (i = .connect ∨ i = .openAttempt)) ∨
        (s.conn = .reconnecting ∧ (i = .tickSlow ∨ i = .reconnectAttempt ∨ i = .openAttempt)))

/-- 43_link_control.md R178, 20_memory.md R63 and 30_encoding.md R86: whatever operation runs, a run only grows, every packet it
hands to `T.write` is the request for one of the 26 chunks under the handle that was held, and every `T.read` is under that
handle with the timeout 2000. -/
def Obligations.OnlyChunkRequestsGoOutOnTheHeldHandle : Prop :=
  ∀ (i : Instr) (s t : State), exec i s = .next t → ∃ run, t.trace = s.trace ++ run ∧
    (∀ h q a, Label.write h q a ∈ run → s.handle = some h ∧ ∃ k, k < 26 ∧ q = requestFor k) ∧
    ∀ h ms a, Label.read h ms a ∈ run → s.handle = some h ∧ ms = 2000

/-- 00_scope.md R11, 43_link_control.md R180, 44_scheduler.md R190, R191 (the spec's decisions D12, D13): CONN_CHANGED comes from
the five operations that move CONN between its states in service and carries the new CONN, FRAME_READY from the ticks and
carries FB, REPAINT from a fast tick out of Connected; no other operation emits anything. -/
def Obligations.EventsComeFromTheListedOperations : Prop :=
  ∀ (i : Instr) (s t : State), exec i s = .next t → ∃ run, t.trace = s.trace ++ run ∧
    (∀ c, Label.connChanged c ∈ run → c = t.conn ∧ c ≠ s.conn ∧
      (i = .connect ∨ i = .ioFailure ∨ i = .reconnectAttempt ∨ i = .tickFast ∨ i = .tickSlow)) ∧
    (∀ bs, Label.frameReady bs ∈ run → bs = snapshot t.fb ∧ t.conn = .connected ∧ (i = .tickFast ∨ i = .tickSlow)) ∧
    (Label.repaint ∈ run → i = .tickFast ∧ s.conn ≠ .connected ∧ t.toBlock = s.toBlock)
end

