-- ==== Sys2Proof/Laws/Codec.lean ====
section
/-! SUPPORT. The numbers behind the byte order (00_scope.md R12), and the bytes of a laid out request one by one
(30_encoding.md R81). -/

namespace Sys2Proof

/-- `LE16` as the rule writes it. -/
theorem le16_toNat (b0 b1 : Byte) : (le16 b0 b1).toNat = b0.toNat + 256 * b1.toNat := by
  have h0 := b0.isLt
  rw [le16, BitVec.toNat_append, ← Nat.shiftLeft_add_eq_or_of_lt h0, Nat.shiftLeft_eq]
  omega

/-- `LE32` as the rule writes it. -/
theorem le32_toNat (b0 b1 b2 b3 : Byte) :
    (le32 b0 b1 b2 b3).toNat = b0.toNat + 2 ^ 8 * b1.toNat + 2 ^ 16 * b2.toNat + 2 ^ 24 * b3.toNat := by
  have h0 := b0.isLt
  have h1 := b1.isLt
  have h2 := b2.isLt
  rw [le32, BitVec.toNat_append, BitVec.toNat_append, BitVec.toNat_append, ← Nat.shiftLeft_add_eq_or_of_lt h0,
    ← Nat.shiftLeft_add_eq_or_of_lt h1, ← Nat.shiftLeft_add_eq_or_of_lt h2]
  simp only [Nat.shiftLeft_eq]
  omega

/-- `enc16` is the inverse of `LE16`. -/
theorem le16_byteOf (v : U16) : le16 (byteOf v 0) (byteOf v 1) = v := by
  apply BitVec.eq_of_toNat_eq
  rw [le16_toNat]
  simp only [byteOf, BitVec.extractLsb'_toNat, Nat.shiftRight_eq_div_pow]
  have := v.isLt
  omega

/-- `enc32` is the inverse of `LE32`. -/
theorem le32_byteOf (v : U32) : le32 (byteOf v 0) (byteOf v 1) (byteOf v 2) (byteOf v 3) = v := by
  apply BitVec.eq_of_toNat_eq
  rw [le32_toNat]
  simp only [byteOf, BitVec.extractLsb'_toNat, Nat.shiftRight_eq_div_pow]
  have := v.isLt
  omega

theorem clamp_eq_max_min (v lo hi : Nat) (h : lo ≤ hi) : clamp v lo hi = max lo (min v hi) := by
  unfold clamp
  split
  · omega
  · split <;> omega

/-- The payload byte count never passes the packet (20_memory.md R60). -/
theorem payloadCount_le (rsp : Packet) : payloadCount rsp ≤ 1012 := by
  simp only [payloadCount, Config.lenMin, Config.lenMax, Config.lenBias, clamp]
  split
  · omega
  · split <;> omega

/-- The payload lies inside the packet, so the slice has its full length (40_codec.md R114). -/
theorem extractPayload_length (rsp : Packet) : (extractPayload rsp).length = payloadCount rsp := by
  have := payloadCount_le rsp
  rw [extractPayload, List.length_take, List.length_drop, rsp.length_bytes]
  simp only [Config.payloadOff]; omega

theorem extractPayload_getD {rsp : Packet} {j : Nat} (h : j < payloadCount rsp) :
    (extractPayload rsp).getD j 0#8 = rsp.byte (12 + j) := by
  simp [extractPayload, Packet.byte, h, List.getD_eq_getElem?_getD]

/-- The 12 leading bytes of a request, then the padding (30_encoding.md R81). -/
theorem reqBytes_eq (p : Params) (c : U16) (offset : U32) :
    reqBytes p c offset =
      p.opcodeBytes[0] :: p.opcodeBytes[1] :: byteOf c 0 :: byteOf c 1 ::
      p.subcmdBytes[0] :: p.subcmdBytes[1] :: p.subcmdBytes[2] :: p.subcmdBytes[3] ::
      byteOf offset 0 :: byteOf offset 1 :: byteOf offset 2 :: byteOf offset 3 :: padding := by
  have h2 : p.opcodeBytes.toList = [p.opcodeBytes[0], p.opcodeBytes[1]] := by
    apply List.ext_getElem
    · simp
    · intro i h1 _
      have : i < 2 := by simpa using h1
      interval_cases i <;> simp
  have h4 : p.subcmdBytes.toList = [p.subcmdBytes[0], p.subcmdBytes[1], p.subcmdBytes[2], p.subcmdBytes[3]] := by
    apply List.ext_getElem
    · simp
    · intro i h1 _
      have : i < 4 := by simpa using h1
      interval_cases i <;> simp
  simp only [reqBytes, h2, h4, enc16, enc32, List.cons_append, List.nil_append]

/-- Words of zeros add nothing. -/
theorem sumWords_zeros (n i : Nat) : sumWords i (List.replicate n 0#8) = 0 := by
  induction n using Nat.twoStepInduction generalizing i with
  | zero => rfl
  | one => rfl
  | more n ih _ =>
    rw [List.replicate_succ, List.replicate_succ, sumWords, ih]
    split <;> rfl

@[simp] theorem sumWords_padding (i : Nat) : sumWords i padding = 0 := sumWords_zeros 1012 i

end Sys2Proof
end

