-- ==== Sys2Proof/Laws/Memory.lean ====
section
/-! SUPPORT. FB as data: reads after writes, MemRead byte by byte, the canonical form kept by every operation, and equal
bytes in canonical form are equal lists (20_memory.md R50, R60; log 6). -/

namespace Sys2Proof.Machine

/-! Reading one byte. -/

@[simp] theorem readByte_nil (a : Nat) : readByte [] a = 0#8 := rfl

theorem readByte_eq_zero_of_unlisted {m : Memory} {a : Nat} (h : ∀ c ∈ m, c.1 ≠ a) : readByte m a = 0#8 := by
  induction m with
  | nil => rfl
  | cons c m ih =>
    rw [readByte, if_neg (h c (by simp))]
    exact ih fun d hd => h d (by simp [hd])

theorem readByte_append_of_left {m n : Memory} {a : Nat} (h : ∀ c ∈ m, c.1 ≠ a) :
    readByte (m ++ n) a = readByte n a := by
  induction m with
  | nil => rfl
  | cons c m ih =>
    rw [List.cons_append, readByte, if_neg (h c (by simp))]
    exact ih fun d hd => h d (by simp [hd])

theorem readByte_append_of_right {m n : Memory} {a : Nat} (h : ∀ c ∈ n, c.1 ≠ a) :
    readByte (m ++ n) a = readByte m a := by
  induction m with
  | nil => exact readByte_eq_zero_of_unlisted h
  | cons c m ih => rw [List.cons_append, readByte, readByte, ih]

/-- Cells picked by their address. -/
theorem readByte_filter (P : Nat → Bool) (m : Memory) (a : Nat) :
    readByte (m.filter fun c => P c.1) a = if P a then readByte m a else 0#8 := by
  induction m with
  | nil => simp
  | cons c m ih =>
    by_cases hc : c.1 = a
    · subst hc
      cases hP : P c.1
      · rw [List.filter_cons_of_neg (by simp [hP]), ih]; simp [hP]
      · rw [List.filter_cons_of_pos (by simp [hP])]; simp [readByte]
    · cases hP : P c.1
      · rw [List.filter_cons_of_neg (by simp [hP]), ih, readByte, if_neg hc]
      · rw [List.filter_cons_of_pos (by simp [hP]), readByte, if_neg hc, ih, readByte, if_neg hc]

/-- Cells dropped because their address is at most `addr` are no byte above it. -/
theorem readByte_dropWhile {m : Memory} {addr a : Nat} (h : addr < a) :
    readByte (m.dropWhile fun c => decide (c.1 ≤ addr)) a = readByte m a := by
  induction m with
  | nil => rfl
  | cons c m ih =>
    by_cases hc : c.1 ≤ addr
    · rw [List.dropWhile_cons_of_pos (by simpa using hc), ih, readByte, if_neg (by omega)]
    · rw [List.dropWhile_cons_of_neg (by simpa using hc)]

/-- MemRead is the bytes one by one (00_scope.md R12). -/
theorem memRead_eq_map (m : Memory) (addr n : Nat) :
    memRead m addr n = (List.range n).map fun i => readByte m (addr + i) := by
  induction n generalizing m addr with
  | zero => rfl
  | succ n ih =>
    rw [memRead, ih, List.range_succ_eq_map, List.map_cons, List.map_map]
    refine congrArg₂ _ rfl (List.map_congr_left fun i _ => ?_)
    rw [readByte_dropWhile (by omega)]
    exact congrArg _ (by simp; omega)

@[simp] theorem memRead_length (m : Memory) (addr n : Nat) : (memRead m addr n).length = n := by
  simp [memRead_eq_map]

theorem memRead_getD {m : Memory} {addr n i : Nat} (h : i < n) :
    (memRead m addr n).getD i 0#8 = readByte m (addr + i) := by
  simp [memRead_eq_map, List.getD_eq_getElem?_getD, h]

/-! The cells of laid down bytes. -/

theorem cellsOf_mem {addr : Nat} {bs : List Byte} {c : Host.Cell} (h : c ∈ cellsOf addr bs) :
    addr ≤ c.1 ∧ c.1 < addr + bs.length ∧ c.2 ≠ 0#8 := by
  induction bs generalizing addr with
  | nil => simp [cellsOf] at h
  | cons b bs ih =>
    simp only [cellsOf] at h
    split at h
    · have := ih h; refine ⟨by omega, ?_, this.2.2⟩; simp only [List.length_cons]; omega
    · rename_i hb
      rcases List.mem_cons.1 h with rfl | h
      · exact ⟨le_refl _, by simp, hb⟩
      · have := ih h; refine ⟨by omega, ?_, this.2.2⟩; simp only [List.length_cons]; omega

theorem cellsOf_pairwise (addr : Nat) (bs : List Byte) :
    (cellsOf addr bs).Pairwise fun c d => c.1 < d.1 := by
  induction bs generalizing addr with
  | nil => exact List.Pairwise.nil
  | cons b bs ih =>
    simp only [cellsOf]
    split
    · exact ih _
    · refine List.Pairwise.cons (fun c hc => ?_) (ih _)
      have := (cellsOf_mem hc).1
      simp only; omega

theorem readByte_cellsOf (addr : Nat) (bs : List Byte) (a : Nat) :
    readByte (cellsOf addr bs) a = if addr ≤ a then bs.getD (a - addr) 0#8 else 0#8 := by
  induction bs generalizing addr with
  | nil => simp [cellsOf]
  | cons b bs ih =>
    have tail : addr < a → readByte (cellsOf (addr + 1) bs) a = (b :: bs).getD (a - addr) 0#8 := by
      intro h
      rw [ih, if_pos (by omega), show a - addr = (a - (addr + 1)) + 1 by omega, List.getD_cons_succ]
    rcases lt_trichotomy addr a with h | h | h
    · rw [if_pos h.le, ← tail h, cellsOf]
      split
      · rfl
      · rw [readByte, if_neg (by omega)]
    · subst h
      rw [if_pos le_rfl, cellsOf]
      split
      · rename_i hb; rw [ih]; simp [hb]
      · simp [readByte]
    · rw [if_neg (by omega)]
      exact readByte_eq_zero_of_unlisted fun c hc => by have := (cellsOf_mem hc).1; omega

/-! Writing. -/

/-- Read after write: the written bytes in their place, every other byte as before. -/
theorem readByte_memWrite (m : Memory) (addr : Nat) (bs : List Byte) (a : Nat) :
    readByte (memWrite m addr bs) a =
      if addr ≤ a ∧ a < addr + bs.length then bs.getD (a - addr) 0#8 else readByte m a := by
  have low : ∀ c ∈ m.filter (fun c => decide (c.1 < addr)), c.1 < addr := fun c hc => by
    simpa using (List.mem_filter.1 hc).2
  have high : ∀ c ∈ m.filter (fun c => decide (addr + bs.length ≤ c.1)), addr + bs.length ≤ c.1 := fun c hc => by
    simpa using (List.mem_filter.1 hc).2
  have fLow := readByte_filter (fun x => decide (x < addr)) m a
  have fHigh := readByte_filter (fun x => decide (addr + bs.length ≤ x)) m a
  unfold memWrite
  by_cases h1 : addr ≤ a
  · rw [List.append_assoc, readByte_append_of_left fun c hc => by have := low c hc; omega]
    by_cases h2 : a < addr + bs.length
    · rw [readByte_append_of_right fun c hc => by have := high c hc; omega, readByte_cellsOf, if_pos h1,
        if_pos ⟨h1, h2⟩]
    · rw [readByte_append_of_left fun c hc => by have := (cellsOf_mem hc).2.1; omega, fHigh,
        if_pos (by simpa using h2), if_neg (by omega)]
  · rw [List.append_assoc, readByte_append_of_right, fLow, if_pos (by simpa using h1), if_neg (by omega)]
    intro c hc
    rcases List.mem_append.1 hc with hc | hc
    · have := (cellsOf_mem hc).1; omega
    · have := high c hc; omega

/-- A write inside FB keeps the canonical form. -/
theorem memWrite_wf {m : Memory} {addr : Nat} {bs : List Byte} (h : m.wf) (hb : addr + bs.length ≤ 25600) :
    (memWrite m addr bs).wf := by
  have low : ∀ c ∈ m.filter (fun c => decide (c.1 < addr)), c.1 < addr := fun c hc => by
    simpa using (List.mem_filter.1 hc).2
  have high : ∀ c ∈ m.filter (fun c => decide (addr + bs.length ≤ c.1)), addr + bs.length ≤ c.1 := fun c hc => by
    simpa using (List.mem_filter.1 hc).2
  refine ⟨?_, fun c hc => ?_⟩
  · refine List.pairwise_append.2 ⟨List.pairwise_append.2 ⟨h.1.filter _, cellsOf_pairwise _ _, fun c hc d hd => ?_⟩,
      h.1.filter _, fun c hc d hd => ?_⟩
    · have := low c hc; have := (cellsOf_mem hd).1; omega
    · have := high d hd
      rcases List.mem_append.1 hc with hc | hc
      · have := low c hc; omega
      · have := (cellsOf_mem hc).2.1; omega
  · rcases List.mem_append.1 hc with hc | hc
    · rcases List.mem_append.1 hc with hc | hc
      · exact h.2 c (List.mem_filter.1 hc).1
      · have := cellsOf_mem hc
        exact ⟨this.2.2, by simp only [Config.fbLen]; omega⟩
    · exact h.2 c (List.mem_filter.1 hc).1

theorem zeroedFb_wf : zeroedFb.wf := by simp [zeroedFb, Memory.wf]

/-- FB_ZERO as the rule writes it: 25600 zero bytes over a canonical FB leave nothing listed (42_framebuffer.md R162). -/
theorem memWrite_zeros {m : Memory} (h : m.wf) : memWrite m 0 (List.replicate 25600 0#8) = zeroedFb := by
  have cells : ∀ n addr, cellsOf addr (List.replicate n 0#8) = [] := by
    intro n
    induction n with
    | zero => intro _; rfl
    | succ n ih => intro addr; rw [List.replicate_succ, cellsOf, if_pos rfl, ih]
  have high : m.filter (fun c => decide (0 + (List.replicate 25600 0#8).length ≤ c.1)) = [] := by
    refine List.filter_eq_nil_iff.2 fun c hc => ?_
    have := (h.2 c hc).2
    simp only [Config.fbLen] at this
    simp only [List.length_replicate, decide_eq_true_eq]; omega
  have low : m.filter (fun c => decide (c.1 < 0)) = [] := List.filter_eq_nil_iff.2 fun c _ => by simp
  rw [memWrite, cells, high, low]; rfl

/-- One swap of rows, byte by byte (42_framebuffer.md R160). -/
theorem readByte_swapRows (m : Memory) (i : Nat) (hi : i < 40) (a : Nat) :
    readByte (swapRows m i) a =
      if 320 * i ≤ a ∧ a < 320 * i + 320 then readByte m (320 * (79 - i) + (a - 320 * i))
      else if 320 * (79 - i) ≤ a ∧ a < 320 * (79 - i) + 320 then readByte m (320 * i + (a - 320 * (79 - i)))
      else readByte m a := by
  simp only [swapRows, readByte_memWrite, memRead_length, Config.rowBytes]
  by_cases h1 : 320 * i ≤ a ∧ a < 320 * i + 320
  · rw [if_neg (by omega), if_pos h1, if_pos h1, memRead_getD (by omega)]
  · by_cases h2 : 320 * (79 - i) ≤ a ∧ a < 320 * (79 - i) + 320
    · rw [if_pos h2, if_neg h1, if_pos h2, memRead_getD (by omega)]
    · rw [if_neg h2, if_neg h1, if_neg h1, if_neg h2]

theorem swapRows_wf {m : Memory} {i : Nat} (h : m.wf) (hi : i < 40) : (swapRows m i).wf := by
  refine memWrite_wf (memWrite_wf h ?_) ?_ <;> simp <;> omega

theorem foldl_swapRows_wf {m : Memory} {is : List Nat} (h : m.wf) (hi : ∀ i ∈ is, i < 40) :
    (is.foldl swapRows m).wf := by
  induction is generalizing m with
  | nil => exact h
  | cons i is ih => exact ih (swapRows_wf h (hi i (by simp))) fun j hj => hi j (by simp [hj])

theorem rowReverse_wf {m : Memory} (h : m.wf) : (rowReverse m).wf :=
  foldl_swapRows_wf h fun i hi => by simpa using hi

/-- The chunk copy stays inside FB (41_frame_transfer.md R138). -/
theorem copyCount_bound (k : Fin Config.chunks) (p : List Byte) : chunkOffset k + copyCount k p ≤ 25600 := by
  have := k.isLt
  simp only [copyCount, chunkOffset, Config.fbLen, Config.stride, Config.chunks] at *
  omega

theorem chunkCopy_wf {m : Memory} (h : m.wf) (k : Fin Config.chunks) (rsp : Packet) : (chunkCopy m k rsp).wf := by
  refine memWrite_wf h ?_
  have := copyCount_bound k (extractPayload rsp)
  rw [List.length_take]; omega

/-- The chunk copy, byte by byte (41_frame_transfer.md R136, R138). -/
theorem readByte_chunkCopy (m : Memory) (k : Fin Config.chunks) (rsp : Packet) (a : Nat) :
    readByte (chunkCopy m k rsp) a =
      if 1012 * k.val ≤ a ∧ a < 1012 * k.val + min (payloadCount rsp) (25600 - 1012 * k.val)
      then rsp.byte (12 + (a - 1012 * k.val)) else readByte m a := by
  rw [chunkCopy, readByte_memWrite]
  simp only [copyCount, extractPayload_length, chunkOffset, List.length_take, Config.fbLen, Config.stride]
  rw [Nat.min_assoc, Nat.min_comm _ (payloadCount rsp), ← Nat.min_assoc, Nat.min_self]
  split
  · rw [← extractPayload_getD (by omega)]
    simp only [List.getD_eq_getElem?_getD, List.getElem?_take]
    rw [if_pos (by omega)]
  · rfl

/-! Extensionality. -/

theorem readByte_ne_zero_iff {m : Memory} (h : m.wf) (a : Nat) : readByte m a ≠ 0#8 ↔ ∃ b, (a, b) ∈ m := by
  constructor
  · intro hr
    by_contra hn
    exact hr (readByte_eq_zero_of_unlisted fun c hc he => hn ⟨c.2, he ▸ hc⟩)
  · rintro ⟨b, hb⟩
    induction m with
    | nil => simp at hb
    | cons c m ih =>
      by_cases hc : c.1 = a
      · rw [readByte, if_pos hc]; exact (h.2 c (by simp)).1
      · rw [readByte, if_neg hc]
        refine ih ⟨h.1.of_cons, fun d hd => h.2 d (by simp [hd])⟩ ?_
        rcases List.mem_cons.1 hb with rfl | hb
        · exact absurd rfl hc
        · exact hb

/-- Two canonical framebuffers with the same bytes are the same list. -/
theorem memory_ext {m n : Memory} (hm : m.wf) (hn : n.wf) (h : ∀ a, readByte m a = readByte n a) : m = n := by
  induction m generalizing n with
  | nil =>
    cases n with
    | nil => rfl
    | cons d n => exact absurd (h d.1) (by simpa [readByte] using (hn.2 d (by simp)).1.symm)
  | cons c m ih =>
    cases n with
    | nil => exact absurd (h c.1) (by simpa [readByte] using (hm.2 c (by simp)).1)
    | cons d n =>
      have hm' : Memory.wf m := ⟨hm.1.of_cons, fun e he => hm.2 e (by simp [he])⟩
      have hn' : Memory.wf n := ⟨hn.1.of_cons, fun e he => hn.2 e (by simp [he])⟩
      have cm : ∀ e ∈ m, c.1 < e.1 := fun e he => List.rel_of_pairwise_cons hm.1 he
      have cn : ∀ e ∈ n, d.1 < e.1 := fun e he => List.rel_of_pairwise_cons hn.1 he
      have key : c.1 = d.1 := by
        rcases lt_trichotomy c.1 d.1 with hlt | he | hlt
        · refine absurd (h c.1) ?_
          rw [readByte, if_pos rfl, readByte_eq_zero_of_unlisted (m := d :: n)]
          · exact (hm.2 c (by simp)).1
          · intro e he
            rcases List.mem_cons.1 he with rfl | he
            · omega
            · have := cn e he; omega
        · exact he
        · refine absurd (h d.1).symm ?_
          rw [readByte, if_pos rfl, readByte_eq_zero_of_unlisted (m := c :: m)]
          · exact (hn.2 d (by simp)).1
          · intro e he
            rcases List.mem_cons.1 he with rfl | he
            · omega
            · have := cm e he; omega
      have val : c.2 = d.2 := by simpa [readByte, key] using h c.1
      obtain rfl : c = d := Prod.ext key val
      rw [ih hm' hn' fun a => ?_]
      by_cases ha : c.1 = a
      · rw [readByte_eq_zero_of_unlisted fun e he => by have := cm e he; omega,
          readByte_eq_zero_of_unlisted fun e he => by have := cn e he; omega]
      · simpa [readByte, ha] using h a

end Sys2Proof.Machine
end

