-- ==== Sys2Proof/Laws/State.lean ====
section
/-! SUPPORT. One lemma for each field of each update of State, true by rfl, so that no later proof unfolds a record
update; and the answers of the transport, which no update but its own transaction changes. -/

namespace Sys2Proof.Machine

variable (s : State)

@[simp] theorem State.setConn_conn (c : Conn) : (s.setConn c).conn = c := rfl
@[simp] theorem State.setConn_handle (c : Conn) : (s.setConn c).handle = s.handle := rfl
@[simp] theorem State.setConn_fb (c : Conn) : (s.setConn c).fb = s.fb := rfl
@[simp] theorem State.setConn_phase (c : Conn) : (s.setConn c).phase = s.phase := rfl
@[simp] theorem State.setConn_k (c : Conn) : (s.setConn c).k = s.k := rfl
@[simp] theorem State.setConn_port (c : Conn) : (s.setConn c).port = s.port := rfl
@[simp] theorem State.setConn_inService (c : Conn) : (s.setConn c).inService = s.inService := rfl
@[simp] theorem State.setConn_enumerations (c : Conn) : (s.setConn c).enumerations = s.enumerations := rfl
@[simp] theorem State.setConn_opens (c : Conn) : (s.setConn c).opens = s.opens := rfl
@[simp] theorem State.setConn_writes (c : Conn) : (s.setConn c).writes = s.writes := rfl
@[simp] theorem State.setConn_reads (c : Conn) : (s.setConn c).reads = s.reads := rfl
@[simp] theorem State.setConn_asked (c : Conn) : (s.setConn c).asked = s.asked := rfl
@[simp] theorem State.setConn_trace (c : Conn) : (s.setConn c).trace = s.trace := rfl
@[simp] theorem State.setConn_result (c : Conn) : (s.setConn c).result = s.result := rfl

@[simp] theorem State.setHandle_conn (h : Option Handle) : (s.setHandle h).conn = s.conn := rfl
@[simp] theorem State.setHandle_handle (h : Option Handle) : (s.setHandle h).handle = h := rfl
@[simp] theorem State.setHandle_fb (h : Option Handle) : (s.setHandle h).fb = s.fb := rfl
@[simp] theorem State.setHandle_phase (h : Option Handle) : (s.setHandle h).phase = s.phase := rfl
@[simp] theorem State.setHandle_k (h : Option Handle) : (s.setHandle h).k = s.k := rfl
@[simp] theorem State.setHandle_port (h : Option Handle) : (s.setHandle h).port = s.port := rfl
@[simp] theorem State.setHandle_inService (h : Option Handle) : (s.setHandle h).inService = s.inService := rfl
@[simp] theorem State.setHandle_enumerations (h : Option Handle) : (s.setHandle h).enumerations = s.enumerations := rfl
@[simp] theorem State.setHandle_opens (h : Option Handle) : (s.setHandle h).opens = s.opens := rfl
@[simp] theorem State.setHandle_writes (h : Option Handle) : (s.setHandle h).writes = s.writes := rfl
@[simp] theorem State.setHandle_reads (h : Option Handle) : (s.setHandle h).reads = s.reads := rfl
@[simp] theorem State.setHandle_asked (h : Option Handle) : (s.setHandle h).asked = s.asked := rfl
@[simp] theorem State.setHandle_trace (h : Option Handle) : (s.setHandle h).trace = s.trace := rfl
@[simp] theorem State.setHandle_result (h : Option Handle) : (s.setHandle h).result = s.result := rfl

@[simp] theorem State.setFb_conn (m : Memory) : (s.setFb m).conn = s.conn := rfl
@[simp] theorem State.setFb_handle (m : Memory) : (s.setFb m).handle = s.handle := rfl
@[simp] theorem State.setFb_fb (m : Memory) : (s.setFb m).fb = m := rfl
@[simp] theorem State.setFb_phase (m : Memory) : (s.setFb m).phase = s.phase := rfl
@[simp] theorem State.setFb_k (m : Memory) : (s.setFb m).k = s.k := rfl
@[simp] theorem State.setFb_port (m : Memory) : (s.setFb m).port = s.port := rfl
@[simp] theorem State.setFb_inService (m : Memory) : (s.setFb m).inService = s.inService := rfl
@[simp] theorem State.setFb_enumerations (m : Memory) : (s.setFb m).enumerations = s.enumerations := rfl
@[simp] theorem State.setFb_opens (m : Memory) : (s.setFb m).opens = s.opens := rfl
@[simp] theorem State.setFb_writes (m : Memory) : (s.setFb m).writes = s.writes := rfl
@[simp] theorem State.setFb_reads (m : Memory) : (s.setFb m).reads = s.reads := rfl
@[simp] theorem State.setFb_asked (m : Memory) : (s.setFb m).asked = s.asked := rfl
@[simp] theorem State.setFb_trace (m : Memory) : (s.setFb m).trace = s.trace := rfl
@[simp] theorem State.setFb_result (m : Memory) : (s.setFb m).result = s.result := rfl

@[simp] theorem State.setPc_conn (p : Phase) (n : Fin Config.chunks) : (s.setPc p n).conn = s.conn := rfl
@[simp] theorem State.setPc_handle (p : Phase) (n : Fin Config.chunks) : (s.setPc p n).handle = s.handle := rfl
@[simp] theorem State.setPc_fb (p : Phase) (n : Fin Config.chunks) : (s.setPc p n).fb = s.fb := rfl
@[simp] theorem State.setPc_phase (p : Phase) (n : Fin Config.chunks) : (s.setPc p n).phase = p := rfl
@[simp] theorem State.setPc_k (p : Phase) (n : Fin Config.chunks) : (s.setPc p n).k = n := rfl
@[simp] theorem State.setPc_port (p : Phase) (n : Fin Config.chunks) : (s.setPc p n).port = s.port := rfl
@[simp] theorem State.setPc_inService (p : Phase) (n : Fin Config.chunks) : (s.setPc p n).inService = s.inService := rfl
@[simp] theorem State.setPc_enumerations (p : Phase) (n : Fin Config.chunks) : (s.setPc p n).enumerations = s.enumerations := rfl
@[simp] theorem State.setPc_opens (p : Phase) (n : Fin Config.chunks) : (s.setPc p n).opens = s.opens := rfl
@[simp] theorem State.setPc_writes (p : Phase) (n : Fin Config.chunks) : (s.setPc p n).writes = s.writes := rfl
@[simp] theorem State.setPc_reads (p : Phase) (n : Fin Config.chunks) : (s.setPc p n).reads = s.reads := rfl
@[simp] theorem State.setPc_asked (p : Phase) (n : Fin Config.chunks) : (s.setPc p n).asked = s.asked := rfl
@[simp] theorem State.setPc_trace (p : Phase) (n : Fin Config.chunks) : (s.setPc p n).trace = s.trace := rfl
@[simp] theorem State.setPc_result (p : Phase) (n : Fin Config.chunks) : (s.setPc p n).result = s.result := rfl

@[simp] theorem State.setService_conn (b : Bool) : (s.setService b).conn = s.conn := rfl
@[simp] theorem State.setService_handle (b : Bool) : (s.setService b).handle = s.handle := rfl
@[simp] theorem State.setService_fb (b : Bool) : (s.setService b).fb = s.fb := rfl
@[simp] theorem State.setService_phase (b : Bool) : (s.setService b).phase = s.phase := rfl
@[simp] theorem State.setService_k (b : Bool) : (s.setService b).k = s.k := rfl
@[simp] theorem State.setService_port (b : Bool) : (s.setService b).port = s.port := rfl
@[simp] theorem State.setService_inService (b : Bool) : (s.setService b).inService = b := rfl
@[simp] theorem State.setService_enumerations (b : Bool) : (s.setService b).enumerations = s.enumerations := rfl
@[simp] theorem State.setService_opens (b : Bool) : (s.setService b).opens = s.opens := rfl
@[simp] theorem State.setService_writes (b : Bool) : (s.setService b).writes = s.writes := rfl
@[simp] theorem State.setService_reads (b : Bool) : (s.setService b).reads = s.reads := rfl
@[simp] theorem State.setService_asked (b : Bool) : (s.setService b).asked = s.asked := rfl
@[simp] theorem State.setService_trace (b : Bool) : (s.setService b).trace = s.trace := rfl
@[simp] theorem State.setService_result (b : Bool) : (s.setService b).result = s.result := rfl

@[simp] theorem State.setPort_conn (f : List Presented) : (s.setPort f).conn = s.conn := rfl
@[simp] theorem State.setPort_handle (f : List Presented) : (s.setPort f).handle = s.handle := rfl
@[simp] theorem State.setPort_fb (f : List Presented) : (s.setPort f).fb = s.fb := rfl
@[simp] theorem State.setPort_phase (f : List Presented) : (s.setPort f).phase = s.phase := rfl
@[simp] theorem State.setPort_k (f : List Presented) : (s.setPort f).k = s.k := rfl
@[simp] theorem State.setPort_port (f : List Presented) : (s.setPort f).port = f := rfl
@[simp] theorem State.setPort_inService (f : List Presented) : (s.setPort f).inService = s.inService := rfl
@[simp] theorem State.setPort_enumerations (f : List Presented) : (s.setPort f).enumerations = s.enumerations := rfl
@[simp] theorem State.setPort_opens (f : List Presented) : (s.setPort f).opens = s.opens := rfl
@[simp] theorem State.setPort_writes (f : List Presented) : (s.setPort f).writes = s.writes := rfl
@[simp] theorem State.setPort_reads (f : List Presented) : (s.setPort f).reads = s.reads := rfl
@[simp] theorem State.setPort_asked (f : List Presented) : (s.setPort f).asked = s.asked := rfl
@[simp] theorem State.setPort_trace (f : List Presented) : (s.setPort f).trace = s.trace := rfl
@[simp] theorem State.setPort_result (f : List Presented) : (s.setPort f).result = s.result := rfl

@[simp] theorem State.log_conn (l : Label) : (s.log l).conn = s.conn := rfl
@[simp] theorem State.log_handle (l : Label) : (s.log l).handle = s.handle := rfl
@[simp] theorem State.log_fb (l : Label) : (s.log l).fb = s.fb := rfl
@[simp] theorem State.log_phase (l : Label) : (s.log l).phase = s.phase := rfl
@[simp] theorem State.log_k (l : Label) : (s.log l).k = s.k := rfl
@[simp] theorem State.log_port (l : Label) : (s.log l).port = s.port := rfl
@[simp] theorem State.log_inService (l : Label) : (s.log l).inService = s.inService := rfl
@[simp] theorem State.log_enumerations (l : Label) : (s.log l).enumerations = s.enumerations := rfl
@[simp] theorem State.log_opens (l : Label) : (s.log l).opens = s.opens := rfl
@[simp] theorem State.log_writes (l : Label) : (s.log l).writes = s.writes := rfl
@[simp] theorem State.log_reads (l : Label) : (s.log l).reads = s.reads := rfl
@[simp] theorem State.log_asked (l : Label) : (s.log l).asked = s.asked := rfl
@[simp] theorem State.log_trace (l : Label) : (s.log l).trace = s.trace ++ [l] := rfl
@[simp] theorem State.log_result (l : Label) : (s.log l).result = s.result := rfl

@[simp] theorem State.setResult_conn (v : Value) : (s.setResult v).conn = s.conn := rfl
@[simp] theorem State.setResult_handle (v : Value) : (s.setResult v).handle = s.handle := rfl
@[simp] theorem State.setResult_fb (v : Value) : (s.setResult v).fb = s.fb := rfl
@[simp] theorem State.setResult_phase (v : Value) : (s.setResult v).phase = s.phase := rfl
@[simp] theorem State.setResult_k (v : Value) : (s.setResult v).k = s.k := rfl
@[simp] theorem State.setResult_port (v : Value) : (s.setResult v).port = s.port := rfl
@[simp] theorem State.setResult_inService (v : Value) : (s.setResult v).inService = s.inService := rfl
@[simp] theorem State.setResult_enumerations (v : Value) : (s.setResult v).enumerations = s.enumerations := rfl
@[simp] theorem State.setResult_opens (v : Value) : (s.setResult v).opens = s.opens := rfl
@[simp] theorem State.setResult_writes (v : Value) : (s.setResult v).writes = s.writes := rfl
@[simp] theorem State.setResult_reads (v : Value) : (s.setResult v).reads = s.reads := rfl
@[simp] theorem State.setResult_asked (v : Value) : (s.setResult v).asked = s.asked := rfl
@[simp] theorem State.setResult_trace (v : Value) : (s.setResult v).trace = s.trace := rfl
@[simp] theorem State.setResult_result (v : Value) : (s.setResult v).result = v := rfl

@[simp] theorem State.tEnumerate_conn : (s.tEnumerate).conn = s.conn := rfl
@[simp] theorem State.tEnumerate_handle : (s.tEnumerate).handle = s.handle := rfl
@[simp] theorem State.tEnumerate_fb : (s.tEnumerate).fb = s.fb := rfl
@[simp] theorem State.tEnumerate_phase : (s.tEnumerate).phase = s.phase := rfl
@[simp] theorem State.tEnumerate_k : (s.tEnumerate).k = s.k := rfl
@[simp] theorem State.tEnumerate_port : (s.tEnumerate).port = s.port := rfl
@[simp] theorem State.tEnumerate_inService : (s.tEnumerate).inService = s.inService := rfl
@[simp] theorem State.tEnumerate_enumerations : (s.tEnumerate).enumerations = s.enumerations.tail := rfl
@[simp] theorem State.tEnumerate_opens : (s.tEnumerate).opens = s.opens := rfl
@[simp] theorem State.tEnumerate_writes : (s.tEnumerate).writes = s.writes := rfl
@[simp] theorem State.tEnumerate_reads : (s.tEnumerate).reads = s.reads := rfl
@[simp] theorem State.tEnumerate_asked : (s.tEnumerate).asked = s.asked + 1 := rfl
@[simp] theorem State.tEnumerate_trace : (s.tEnumerate).trace = s.trace ++ [.enumerate Config.params.vendorId Config.params.productId s.enumAnswer] := rfl
@[simp] theorem State.tEnumerate_result : (s.tEnumerate).result = s.result := rfl

@[simp] theorem State.tOpen_conn (p : Path) : (s.tOpen p).conn = s.conn := rfl
@[simp] theorem State.tOpen_handle (p : Path) : (s.tOpen p).handle = s.handle := rfl
@[simp] theorem State.tOpen_fb (p : Path) : (s.tOpen p).fb = s.fb := rfl
@[simp] theorem State.tOpen_phase (p : Path) : (s.tOpen p).phase = s.phase := rfl
@[simp] theorem State.tOpen_k (p : Path) : (s.tOpen p).k = s.k := rfl
@[simp] theorem State.tOpen_port (p : Path) : (s.tOpen p).port = s.port := rfl
@[simp] theorem State.tOpen_inService (p : Path) : (s.tOpen p).inService = s.inService := rfl
@[simp] theorem State.tOpen_enumerations (p : Path) : (s.tOpen p).enumerations = s.enumerations := rfl
@[simp] theorem State.tOpen_opens (p : Path) : (s.tOpen p).opens = s.opens.tail := rfl
@[simp] theorem State.tOpen_writes (p : Path) : (s.tOpen p).writes = s.writes := rfl
@[simp] theorem State.tOpen_reads (p : Path) : (s.tOpen p).reads = s.reads := rfl
@[simp] theorem State.tOpen_asked (p : Path) : (s.tOpen p).asked = s.asked + 1 := rfl
@[simp] theorem State.tOpen_trace (p : Path) : (s.tOpen p).trace = s.trace ++ [.openPath p s.openAnswer] := rfl
@[simp] theorem State.tOpen_result (p : Path) : (s.tOpen p).result = s.result := rfl

@[simp] theorem State.tWrite_conn (h : Handle) (q : Packet) : (s.tWrite h q).conn = s.conn := rfl
@[simp] theorem State.tWrite_handle (h : Handle) (q : Packet) : (s.tWrite h q).handle = s.handle := rfl
@[simp] theorem State.tWrite_fb (h : Handle) (q : Packet) : (s.tWrite h q).fb = s.fb := rfl
@[simp] theorem State.tWrite_phase (h : Handle) (q : Packet) : (s.tWrite h q).phase = s.phase := rfl
@[simp] theorem State.tWrite_k (h : Handle) (q : Packet) : (s.tWrite h q).k = s.k := rfl
@[simp] theorem State.tWrite_port (h : Handle) (q : Packet) : (s.tWrite h q).port = s.port := rfl
@[simp] theorem State.tWrite_inService (h : Handle) (q : Packet) : (s.tWrite h q).inService = s.inService := rfl
@[simp] theorem State.tWrite_enumerations (h : Handle) (q : Packet) : (s.tWrite h q).enumerations = s.enumerations := rfl
@[simp] theorem State.tWrite_opens (h : Handle) (q : Packet) : (s.tWrite h q).opens = s.opens := rfl
@[simp] theorem State.tWrite_writes (h : Handle) (q : Packet) : (s.tWrite h q).writes = s.writes.tail := rfl
@[simp] theorem State.tWrite_reads (h : Handle) (q : Packet) : (s.tWrite h q).reads = s.reads := rfl
@[simp] theorem State.tWrite_asked (h : Handle) (q : Packet) : (s.tWrite h q).asked = s.asked + 1 := rfl
@[simp] theorem State.tWrite_trace (h : Handle) (q : Packet) : (s.tWrite h q).trace = s.trace ++ [.write h q s.writeAnswer] := rfl
@[simp] theorem State.tWrite_result (h : Handle) (q : Packet) : (s.tWrite h q).result = s.result := rfl

@[simp] theorem State.tRead_conn (h : Handle) : (s.tRead h).conn = s.conn := rfl
@[simp] theorem State.tRead_handle (h : Handle) : (s.tRead h).handle = s.handle := rfl
@[simp] theorem State.tRead_fb (h : Handle) : (s.tRead h).fb = s.fb := rfl
@[simp] theorem State.tRead_phase (h : Handle) : (s.tRead h).phase = s.phase := rfl
@[simp] theorem State.tRead_k (h : Handle) : (s.tRead h).k = s.k := rfl
@[simp] theorem State.tRead_port (h : Handle) : (s.tRead h).port = s.port := rfl
@[simp] theorem State.tRead_inService (h : Handle) : (s.tRead h).inService = s.inService := rfl
@[simp] theorem State.tRead_enumerations (h : Handle) : (s.tRead h).enumerations = s.enumerations := rfl
@[simp] theorem State.tRead_opens (h : Handle) : (s.tRead h).opens = s.opens := rfl
@[simp] theorem State.tRead_writes (h : Handle) : (s.tRead h).writes = s.writes := rfl
@[simp] theorem State.tRead_reads (h : Handle) : (s.tRead h).reads = s.reads.tail := rfl
@[simp] theorem State.tRead_asked (h : Handle) : (s.tRead h).asked = s.asked + 1 := rfl
@[simp] theorem State.tRead_trace (h : Handle) : (s.tRead h).trace = s.trace ++ [.read h 2000 s.readAnswer] := rfl
@[simp] theorem State.tRead_result (h : Handle) : (s.tRead h).result = s.result := rfl

@[simp] theorem State.tReadOf_conn (h : Handle) (q : Packet) : (s.tReadOf h q).conn = s.conn := rfl
@[simp] theorem State.tReadOf_handle (h : Handle) (q : Packet) : (s.tReadOf h q).handle = s.handle := rfl
@[simp] theorem State.tReadOf_fb (h : Handle) (q : Packet) : (s.tReadOf h q).fb = s.fb := rfl
@[simp] theorem State.tReadOf_phase (h : Handle) (q : Packet) : (s.tReadOf h q).phase = s.phase := rfl
@[simp] theorem State.tReadOf_k (h : Handle) (q : Packet) : (s.tReadOf h q).k = s.k := rfl
@[simp] theorem State.tReadOf_port (h : Handle) (q : Packet) : (s.tReadOf h q).port = s.port := rfl
@[simp] theorem State.tReadOf_inService (h : Handle) (q : Packet) : (s.tReadOf h q).inService = s.inService := rfl
@[simp] theorem State.tReadOf_enumerations (h : Handle) (q : Packet) : (s.tReadOf h q).enumerations = s.enumerations := rfl
@[simp] theorem State.tReadOf_opens (h : Handle) (q : Packet) : (s.tReadOf h q).opens = s.opens := rfl
@[simp] theorem State.tReadOf_writes (h : Handle) (q : Packet) : (s.tReadOf h q).writes = s.writes := rfl
@[simp] theorem State.tReadOf_reads (h : Handle) (q : Packet) : (s.tReadOf h q).reads = s.reads := rfl
@[simp] theorem State.tReadOf_asked (h : Handle) (q : Packet) : (s.tReadOf h q).asked = s.asked + 1 := rfl
@[simp] theorem State.tReadOf_trace (h : Handle) (q : Packet) : (s.tReadOf h q).trace = s.trace ++ [.read h 2000 (.response q)] := rfl
@[simp] theorem State.tReadOf_result (h : Handle) (q : Packet) : (s.tReadOf h q).result = s.result := rfl

@[simp] theorem State.tClose_conn (h : Handle) : (s.tClose h).conn = s.conn := rfl
@[simp] theorem State.tClose_handle (h : Handle) : (s.tClose h).handle = s.handle := rfl
@[simp] theorem State.tClose_fb (h : Handle) : (s.tClose h).fb = s.fb := rfl
@[simp] theorem State.tClose_phase (h : Handle) : (s.tClose h).phase = s.phase := rfl
@[simp] theorem State.tClose_k (h : Handle) : (s.tClose h).k = s.k := rfl
@[simp] theorem State.tClose_port (h : Handle) : (s.tClose h).port = s.port := rfl
@[simp] theorem State.tClose_inService (h : Handle) : (s.tClose h).inService = s.inService := rfl
@[simp] theorem State.tClose_enumerations (h : Handle) : (s.tClose h).enumerations = s.enumerations := rfl
@[simp] theorem State.tClose_opens (h : Handle) : (s.tClose h).opens = s.opens := rfl
@[simp] theorem State.tClose_writes (h : Handle) : (s.tClose h).writes = s.writes := rfl
@[simp] theorem State.tClose_reads (h : Handle) : (s.tClose h).reads = s.reads := rfl
@[simp] theorem State.tClose_asked (h : Handle) : (s.tClose h).asked = s.asked := rfl
@[simp] theorem State.tClose_trace (h : Handle) : (s.tClose h).trace = s.trace ++ [.close h] := rfl
@[simp] theorem State.tClose_result (h : Handle) : (s.tClose h).result = s.result := rfl

/-! The updates of the ports leave the whole of the block. -/

@[simp] theorem State.setService_toBlock (b : Bool) : (s.setService b).toBlock = s.toBlock := rfl
@[simp] theorem State.setPort_toBlock (f : List Presented) : (s.setPort f).toBlock = s.toBlock := rfl
@[simp] theorem State.log_toBlock (l : Label) : (s.log l).toBlock = s.toBlock := rfl
@[simp] theorem State.setResult_toBlock (v : Value) : (s.setResult v).toBlock = s.toBlock := rfl
@[simp] theorem State.tEnumerate_toBlock : (s.tEnumerate).toBlock = s.toBlock := rfl
@[simp] theorem State.tOpen_toBlock (p : Path) : (s.tOpen p).toBlock = s.toBlock := rfl
@[simp] theorem State.tWrite_toBlock (h : Handle) (q : Packet) : (s.tWrite h q).toBlock = s.toBlock := rfl
@[simp] theorem State.tRead_toBlock (h : Handle) : (s.tRead h).toBlock = s.toBlock := rfl
@[simp] theorem State.tReadOf_toBlock (h : Handle) (q : Packet) : (s.tReadOf h q).toBlock = s.toBlock := rfl
@[simp] theorem State.tClose_toBlock (h : Handle) : (s.tClose h).toBlock = s.toBlock := rfl

/-! The next answers depend on the given answers and the count alone. -/

@[simp] theorem State.setConn_enumAnswer (c : Conn) : (s.setConn c).enumAnswer = s.enumAnswer := rfl
@[simp] theorem State.setHandle_enumAnswer (h : Option Handle) : (s.setHandle h).enumAnswer = s.enumAnswer := rfl
@[simp] theorem State.setFb_enumAnswer (m : Memory) : (s.setFb m).enumAnswer = s.enumAnswer := rfl
@[simp] theorem State.setPc_enumAnswer (p : Phase) (n : Fin Config.chunks) : (s.setPc p n).enumAnswer = s.enumAnswer := rfl
@[simp] theorem State.setService_enumAnswer (b : Bool) : (s.setService b).enumAnswer = s.enumAnswer := rfl
@[simp] theorem State.setPort_enumAnswer (f : List Presented) : (s.setPort f).enumAnswer = s.enumAnswer := rfl
@[simp] theorem State.log_enumAnswer (l : Label) : (s.log l).enumAnswer = s.enumAnswer := rfl
@[simp] theorem State.setResult_enumAnswer (v : Value) : (s.setResult v).enumAnswer = s.enumAnswer := rfl
@[simp] theorem State.tClose_enumAnswer (h : Handle) : (s.tClose h).enumAnswer = s.enumAnswer := rfl

@[simp] theorem State.setConn_openAnswer (c : Conn) : (s.setConn c).openAnswer = s.openAnswer := rfl
@[simp] theorem State.setHandle_openAnswer (h : Option Handle) : (s.setHandle h).openAnswer = s.openAnswer := rfl
@[simp] theorem State.setFb_openAnswer (m : Memory) : (s.setFb m).openAnswer = s.openAnswer := rfl
@[simp] theorem State.setPc_openAnswer (p : Phase) (n : Fin Config.chunks) : (s.setPc p n).openAnswer = s.openAnswer := rfl
@[simp] theorem State.setService_openAnswer (b : Bool) : (s.setService b).openAnswer = s.openAnswer := rfl
@[simp] theorem State.setPort_openAnswer (f : List Presented) : (s.setPort f).openAnswer = s.openAnswer := rfl
@[simp] theorem State.log_openAnswer (l : Label) : (s.log l).openAnswer = s.openAnswer := rfl
@[simp] theorem State.setResult_openAnswer (v : Value) : (s.setResult v).openAnswer = s.openAnswer := rfl
@[simp] theorem State.tClose_openAnswer (h : Handle) : (s.tClose h).openAnswer = s.openAnswer := rfl

@[simp] theorem State.setConn_writeAnswer (c : Conn) : (s.setConn c).writeAnswer = s.writeAnswer := rfl
@[simp] theorem State.setHandle_writeAnswer (h : Option Handle) : (s.setHandle h).writeAnswer = s.writeAnswer := rfl
@[simp] theorem State.setFb_writeAnswer (m : Memory) : (s.setFb m).writeAnswer = s.writeAnswer := rfl
@[simp] theorem State.setPc_writeAnswer (p : Phase) (n : Fin Config.chunks) : (s.setPc p n).writeAnswer = s.writeAnswer := rfl
@[simp] theorem State.setService_writeAnswer (b : Bool) : (s.setService b).writeAnswer = s.writeAnswer := rfl
@[simp] theorem State.setPort_writeAnswer (f : List Presented) : (s.setPort f).writeAnswer = s.writeAnswer := rfl
@[simp] theorem State.log_writeAnswer (l : Label) : (s.log l).writeAnswer = s.writeAnswer := rfl
@[simp] theorem State.setResult_writeAnswer (v : Value) : (s.setResult v).writeAnswer = s.writeAnswer := rfl
@[simp] theorem State.tClose_writeAnswer (h : Handle) : (s.tClose h).writeAnswer = s.writeAnswer := rfl

@[simp] theorem State.setConn_readAnswer (c : Conn) : (s.setConn c).readAnswer = s.readAnswer := rfl
@[simp] theorem State.setHandle_readAnswer (h : Option Handle) : (s.setHandle h).readAnswer = s.readAnswer := rfl
@[simp] theorem State.setFb_readAnswer (m : Memory) : (s.setFb m).readAnswer = s.readAnswer := rfl
@[simp] theorem State.setPc_readAnswer (p : Phase) (n : Fin Config.chunks) : (s.setPc p n).readAnswer = s.readAnswer := rfl
@[simp] theorem State.setService_readAnswer (b : Bool) : (s.setService b).readAnswer = s.readAnswer := rfl
@[simp] theorem State.setPort_readAnswer (f : List Presented) : (s.setPort f).readAnswer = s.readAnswer := rfl
@[simp] theorem State.log_readAnswer (l : Label) : (s.log l).readAnswer = s.readAnswer := rfl
@[simp] theorem State.setResult_readAnswer (v : Value) : (s.setResult v).readAnswer = s.readAnswer := rfl
@[simp] theorem State.tClose_readAnswer (h : Handle) : (s.tClose h).readAnswer = s.readAnswer := rfl

theorem State.enumAnswer_cons {s : State} {a} {as} (h : s.enumerations = a :: as) : s.enumAnswer = a := by
  simp [State.enumAnswer, h]

theorem State.openAnswer_cons {s : State} {a} {as} (h : s.opens = a :: as) : s.openAnswer = a := by
  simp [State.openAnswer, h]

theorem State.writeAnswer_cons {s : State} {a} {as} (h : s.writes = a :: as) : s.writeAnswer = a := by
  simp [State.writeAnswer, h]

theorem State.readAnswer_cons {s : State} {a} {as} (h : s.reads = a :: as) : s.readAnswer = a := by
  simp [State.readAnswer, h]

/-! Two updates in a row. -/

@[simp] theorem State.setPort_setPort (f g : List Presented) : (s.setPort f).setPort g = s.setPort g := rfl
@[simp] theorem State.setPort_self : s.setPort s.port = s := rfl
@[simp] theorem State.setResult_setResult (v w : Value) : (s.setResult v).setResult w = s.setResult w := rfl
@[simp] theorem State.setPc_setPc (p q : Phase) (m n : Fin Config.chunks) : (s.setPc p m).setPc q n = s.setPc q n := rfl
@[simp] theorem State.setFb_setFb (m n : Memory) : (s.setFb m).setFb n = s.setFb n := rfl

end Sys2Proof.Machine
end

