-- ==== Sys2Proof/Laws/Ops.lean ====
section
/-! SUPPORT. For each shared operation, once, everything it can do. Later proofs cite these and do not unfold it. -/

namespace Sys2Proof.Machine

variable {s : State}

/-! Guards. -/

theorem turnedAway_eq_none_iff : s.turnedAway = none ↔ s.inService = true ∧ s.phase = .idle := by
  unfold State.turnedAway
  cases hs : s.inService <;> cases hp : s.phase <;> simp

theorem turnedAway_cases :
    s.turnedAway = none ∨ s.turnedAway = some .outOfService ∨ s.turnedAway = some .busy := by
  unfold State.turnedAway
  split
  · simp
  · split <;> simp

theorem pullHandle_eq_some_iff {h : Handle} :
    s.pullHandle = some h ↔ s.conn = .connected ∧ s.phase = .idle ∧ s.handle = some h := by
  unfold State.pullHandle
  split <;> simp_all

theorem phaseHandle_eq_some_iff {p : Phase} {h : Handle} :
    s.phaseHandle p = some h ↔ s.phase = p ∧ s.handle = some h := by
  unfold State.phaseHandle
  split <;> simp_all

theorem failingHandle_eq_some_iff {h : Handle} :
    s.failingHandle = some h ↔ s.conn = .connected ∧ s.phase = .idle ∧ s.handle = some h := by
  unfold State.failingHandle
  split <;> simp_all

/-! Steps of a pull. -/

theorem nextChunk_val {k : Fin Config.chunks} (h : lastChunk k = false) : (nextChunk k).val = k.val + 1 := by
  have hk := k.isLt
  simp only [lastChunk, beq_eq_false_iff_ne, ne_eq] at h
  simp only [Config.chunks] at hk
  rw [nextChunk, dif_pos (by simp only [Config.chunks]; omega)]

theorem lastChunk_iff {k : Fin Config.chunks} : lastChunk k = true ↔ k.val = 25 := by
  simp [lastChunk]

theorem sendRequest_ok {h : Handle} {q : Packet} (ha : s.writeAnswer = .ok) :
    s.sendRequest h q = (s.tWrite h q).afterWrite := by
  simp [State.sendRequest, ha]

theorem sendRequest_error {h : Handle} {q : Packet} (ha : s.writeAnswer = .error) :
    s.sendRequest h q = (s.tWrite h q).raise (.writeFailed s.k) := by
  simp [State.sendRequest, ha]

theorem receiveResponse_response {h : Handle} {r : Packet} (ha : s.readAnswer = .response r) :
    s.receiveResponse h = (s.tRead h).acceptResponse r := by
  simp [State.receiveResponse, ha]

theorem receiveResponse_error {h : Handle} (ha : s.readAnswer = .errorOrTimeout) :
    s.receiveResponse h = (s.tRead h).raise (.readFailedOrTimeout s.k) := by
  simp [State.receiveResponse, ha]

/-- What an accepted request leaves, by the position. -/
theorem afterWrite_eq :
    s.afterWrite =
      if s.k.val = 25 then { s with phase := .readPhase, k := 0, result := .nothing }
      else { s with phase := .writePhase, k := nextChunk s.k, result := .nothing } := by
  unfold State.afterWrite
  by_cases hk : s.k.val = 25
  · rw [if_pos (lastChunk_iff.2 hk), if_pos hk]; rfl
  · rw [if_neg (fun h => hk (lastChunk_iff.1 h)), if_neg hk]; rfl

/-- What an accepted response leaves, by the position. -/
theorem acceptResponse_eq (r : Packet) :
    s.acceptResponse r =
      if s.k.val = 25 then
        { s with fb := rowReverse (chunkCopy s.fb s.k r), phase := .idle, k := 0, result := .pulled .ok }
      else { s with fb := chunkCopy s.fb s.k r, phase := .readPhase, k := nextChunk s.k, result := .nothing } := by
  unfold State.acceptResponse
  by_cases hk : s.k.val = 25
  · rw [if_pos (lastChunk_iff.2 hk), if_pos hk]; simp only [State.setFb, State.setPc, State.setResult]
  · rw [if_neg (fun h => hk (lastChunk_iff.1 h)), if_neg hk]; simp only [State.setFb, State.setPc, State.setResult]

/-! The pull as one function. -/

/-- A write phase makes writes on the handle, and changes nothing else. -/
theorem writeAll_frame (h : Handle) (ks : List (Fin Config.chunks)) (s : State) :
    ∃ ws n run, (State.writeAll h ks s).2 = { s with writes := ws, asked := n, trace := s.trace ++ run } ∧
      ∀ l ∈ run, ∃ q a, l = Label.write h q a := by
  induction ks generalizing s with
  | nil => exact ⟨s.writes, s.asked, [], by simp only [State.writeAll, List.append_nil], by simp⟩
  | cons k ks ih =>
    rw [State.writeAll]
    split
    · obtain ⟨ws, n, run, he, hr⟩ := ih (s.tWrite h (chunkRequest Config.params k))
      refine ⟨ws, n, Label.write h (chunkRequest Config.params k) s.writeAnswer :: run, ?_, ?_⟩
      · rw [he]; simp [State.tWrite]
      · rintro l hl
        rcases List.mem_cons.1 hl with rfl | hl
        · exact ⟨_, _, rfl⟩
        · exact hr l hl
    · exact ⟨_, _, [Label.write h (chunkRequest Config.params k) s.writeAnswer], rfl, by simp⟩

/-- A read phase makes reads on the handle and writes FB, and changes nothing else. -/
theorem readAll_frame (h : Handle) (ks : List (Fin Config.chunks)) (s : State) :
    ∃ m rs n run, (State.readAll h ks s).2 = { s with fb := m, reads := rs, asked := n, trace := s.trace ++ run } ∧
      (s.fb.wf → m.wf) ∧ ∀ l ∈ run, ∃ a, l = Label.read h 2000 a := by
  induction ks generalizing s with
  | nil => exact ⟨s.fb, s.reads, s.asked, [], by simp only [State.readAll, List.append_nil], id, by simp⟩
  | cons k ks ih =>
    rw [State.readAll]
    split
    · rename_i r _
      obtain ⟨m, rs, n, run, he, hw, hr⟩ := ih ((s.tRead h).setFb (chunkCopy s.fb k r))
      refine ⟨m, rs, n, Label.read h 2000 s.readAnswer :: run, ?_, fun hm => hw (chunkCopy_wf hm k r), ?_⟩
      · rw [he]; simp [State.tRead, State.setFb]
      · rintro l hl
        rcases List.mem_cons.1 hl with rfl | hl
        · exact ⟨_, rfl⟩
        · exact hr l hl
    · exact ⟨_, _, _, [Label.read h 2000 s.readAnswer], rfl, id, by simp⟩

/-- A pull makes writes and reads on the handle, writes FB, ends at (Idle, 0), and changes nothing else. -/
theorem pull_frame (h : Handle) (s : State) :
    ∃ m ws rs n run, (s.pull h).2 =
        { s with fb := m, phase := .idle, k := 0, writes := ws, reads := rs, asked := n, trace := s.trace ++ run } ∧
      (s.fb.wf → m.wf) ∧
      ∀ l ∈ run, (∃ q a, l = Label.write h q a) ∨ ∃ a, l = Label.read h 2000 a := by
  obtain ⟨ws, n, run, hw, hr⟩ := writeAll_frame h (List.finRange Config.chunks) s
  unfold State.pull
  split
  · rename_i s1 heq
    have h1 : s1 = (State.writeAll h (List.finRange Config.chunks) s).2 := by rw [heq]
    subst h1
    exact ⟨s.fb, ws, s.reads, n, run, by rw [hw]; simp [State.setPc], id, fun l hl => .inl (hr l hl)⟩
  · rename_i s1 heq
    have h1 : s1 = (State.writeAll h (List.finRange Config.chunks) s).2 := by rw [heq]
    subst h1
    rw [hw]
    obtain ⟨m, rs, n', run', hw', hm, hr'⟩ := readAll_frame h (List.finRange Config.chunks)
      { s with writes := ws, asked := n, trace := s.trace ++ run }
    have labels : ∀ l ∈ run ++ run', (∃ q a, l = Label.write h q a) ∨ ∃ a, l = Label.read h 2000 a := fun l hl =>
      (List.mem_append.1 hl).elim (fun hl => .inl (hr l hl)) fun hl => .inr (hr' l hl)
    split
    · rename_i s2 heq'
      have h2 : s2 = (State.readAll h (List.finRange Config.chunks)
        { s with writes := ws, asked := n, trace := s.trace ++ run }).2 := by rw [heq']
      subst h2
      exact ⟨m, ws, rs, n', run ++ run', by rw [hw']; simp [State.setPc], hm, labels⟩
    · rename_i s2 heq'
      have h2 : s2 = (State.readAll h (List.finRange Config.chunks)
        { s with writes := ws, asked := n, trace := s.trace ++ run }).2 := by rw [heq']
      subst h2
      exact ⟨rowReverse m, ws, rs, n', run ++ run', by rw [hw']; simp [State.setPc, State.setFb],
        fun hs => rowReverse_wf (hm hs), labels⟩

/-! Link control. -/

/-- The run line of a defensive close. -/
def closeRun : Option Handle → List Label
  | some h => [.close h]
  | none => []

theorem closeHeld_eq (s : State) :
    s.closeHeld = { s with handle := none, trace := s.trace ++ closeRun s.handle } := by
  obtain ⟨⟨c, h, f, p, k⟩, q⟩ := s
  cases h
  · simp [State.closeHeld, closeRun]
  · rfl

/-- An open attempt: no match, a match that does not open, or success (43_link_control.md R172). -/
theorem attempt_cases (s : State) :
    (selectDevice Config.params.usagePage s.enumAnswer = none ∧
      s.attempt = (.failure .enumerationFailed, s.closeHeld.tEnumerate)) ∨
    ∃ path, selectDevice Config.params.usagePage s.enumAnswer = some path ∧
      ((s.closeHeld.tEnumerate.openAnswer = .error ∧
          s.attempt = (.failure .openFailed, s.closeHeld.tEnumerate.tOpen path)) ∨
        ∃ h, s.closeHeld.tEnumerate.openAnswer = .handle h ∧
          s.attempt = (.success, (s.closeHeld.tEnumerate.tOpen path).attach h)) := by
  have he : s.closeHeld.enumAnswer = s.enumAnswer := by rw [closeHeld_eq]; rfl
  unfold State.attempt State.searchAndOpen
  rw [he]
  cases hsel : selectDevice Config.params.usagePage s.enumAnswer with
  | none => exact .inl ⟨rfl, rfl⟩
  | some path =>
    refine .inr ⟨path, rfl, ?_⟩
    simp only [State.openSelected]
    cases ha : s.closeHeld.tEnumerate.openAnswer with
    | error => exact .inl ⟨rfl, rfl⟩
    | handle h => exact .inr ⟨h, rfl, rfl⟩

/-- SELECT_DEVICE answers the first match (43_link_control.md R171). -/
theorem selectDevice_cases (u : Nat) (ds : List Descriptor) :
    (selectDevice u ds = none ∧ ∀ d ∈ ds, d.usagePage ≠ u) ∨
    ∃ before d after, ds = before ++ d :: after ∧ (∀ e ∈ before, e.usagePage ≠ u) ∧ d.usagePage = u ∧
      selectDevice u ds = some d.path := by
  induction ds with
  | nil => exact .inl ⟨rfl, by simp⟩
  | cons d ds ih =>
    by_cases hd : d.usagePage = u
    · exact .inr ⟨[], d, ds, rfl, by simp, hd, by simp [selectDevice, hd]⟩
    · rcases ih with ⟨hn, ha⟩ | ⟨before, e, after, hds, hb, he, hs⟩
      · exact .inl ⟨by simp [selectDevice, hd, hn], by simpa [hd] using ha⟩
      · exact .inr ⟨d :: before, e, after, by simp [hds], by simpa [hd] using hb, he, by simp [selectDevice, hd, hs]⟩

/-- Failure entry fixes the whole of the block but the position (60_exceptions.md R208). -/
theorem ioFailure_eq (s : State) (h : Handle) :
    s.ioFailure h =
      { s with
        conn := .reconnecting
        handle := none
        fb := []
        trace := s.trace ++ [.close h, .connChanged .reconnecting] } := by
  simp [State.ioFailure, State.tClose, State.log, State.setHandle, State.setFb, State.setConn, zeroedFb]

/-! The command port. -/

theorem fetch_cons {f : Presented} {fs : List Presented} (h : s.port = f :: fs) :
    fetch s = some (f, s.setPort fs) := by
  simp [fetch, h]

theorem fetch_nil (h : s.port = []) : fetch s = none := by
  simp [fetch, h]

theorem barred_eq_none_iff {src : Source} {i : Instr} :
    s.barred src i = none ↔
      (src = .host → i.kind = .command) ∧ (s.phase = .idle ∨ i.kind.runsInPull = true) := by
  unfold State.barred
  split
  · simp_all
  · split
    · simp_all
    · simp_all; tauto

/-- Everything a step that goes on can be (30_encoding.md R90, 41_frame_transfer.md R130, R141; log 4, log 16): a presented
operation that is not barred, the due step of a pull, or an idle block left as it is. -/
theorem step_cases {t : State} (h : step s = .next t) :
    (∃ p rest i, s.port = p :: rest ∧ decode p.bytes = .ok i ∧ (p.source = .host → i.kind = .command) ∧
      (s.phase = .idle ∨ i.kind.runsInPull = true) ∧ exec i (s.setPort rest) = .next t) ∨
    (s.port = [] ∧ s.phase = .writePhase ∧ exec .writeStep s = .next t) ∨
    (s.port = [] ∧ s.phase = .readPhase ∧ exec .readStep s = .next t) ∨
    (s.port = [] ∧ s.phase = .idle ∧ t = s) := by
  unfold step at h
  cases hport : s.port with
  | nil =>
    rw [fetch_nil hport] at h
    cases hp : s.phase <;> simp only [sequencer, hp] at h <;> simp_all
  | cons p rest =>
    rw [fetch_cons hport] at h
    cases hd : decode p.bytes with
    | error e => simp [hd] at h
    | ok i =>
      simp only [hd] at h
      cases hb : (s.setPort rest).barred p.source i with
      | some r => simp [hb] at h
      | none =>
        simp only [hb] at h
        obtain ⟨h1, h2⟩ := barred_eq_none_iff.1 hb
        exact .inl ⟨p, rest, i, rfl, hd, h1, h2, h⟩

end Sys2Proof.Machine
end

