-- ==== Sys2Proof/Laws/PerInstr.lean ====
section
/-! SUPPORT. Per-instruction families. LeadingByte: an encoding begins with the id of 30_encoding.md R90 or the model's tag,
and the ids are below 0x16. -/

namespace Sys2Proof.Laws

-- One theorem after the other: elaborated all at once, they hold a thread and its stack each.
set_option Elab.async false

/-- An encoding begins with the operation's id, which is below 0x16. -/
def LeadingByte.Statement (i : Instr) : Prop := (encode i).head? = some i.id ∧ i.id.toNat < 0x16

theorem LeadingByte.reqReadFb (pkt : Packet) : LeadingByte.Statement (.reqReadFb pkt) := ⟨rfl, by simp [Instr.id]⟩
theorem LeadingByte.rspReadFb (rsp : Packet) : LeadingByte.Statement (.rspReadFb rsp) := ⟨rfl, by simp [Instr.id]⟩
theorem LeadingByte.checksum16 (pkt : Packet) : LeadingByte.Statement (.checksum16 pkt) := ⟨rfl, by simp [Instr.id]⟩
theorem LeadingByte.buildRequest (offset : U32) : LeadingByte.Statement (.buildRequest offset) := ⟨rfl, by simp [Instr.id]⟩
theorem LeadingByte.checkRequest (pkt : Packet) : LeadingByte.Statement (.checkRequest pkt) := ⟨rfl, by simp [Instr.id]⟩
theorem LeadingByte.extractPayload (rsp : Packet) : LeadingByte.Statement (.extractPayload rsp) := ⟨rfl, by simp [Instr.id]⟩
theorem LeadingByte.pullFrame : LeadingByte.Statement .pullFrame := ⟨rfl, by simp [Instr.id]⟩
theorem LeadingByte.pullStart : LeadingByte.Statement .pullStart := ⟨rfl, by simp [Instr.id]⟩
theorem LeadingByte.writeStep : LeadingByte.Statement .writeStep := ⟨rfl, by simp [Instr.id]⟩
theorem LeadingByte.readStep : LeadingByte.Statement .readStep := ⟨rfl, by simp [Instr.id]⟩
theorem LeadingByte.rowReverse : LeadingByte.Statement .rowReverse := ⟨rfl, by simp [Instr.id]⟩
theorem LeadingByte.fbZero : LeadingByte.Statement .fbZero := ⟨rfl, by simp [Instr.id]⟩
theorem LeadingByte.fbSnapshot : LeadingByte.Statement .fbSnapshot := ⟨rfl, by simp [Instr.id]⟩
theorem LeadingByte.selectDevice (ds : List Descriptor) : LeadingByte.Statement (.selectDevice ds) := ⟨rfl, by simp [Instr.id]⟩
theorem LeadingByte.connect : LeadingByte.Statement .connect := ⟨rfl, by simp [Instr.id]⟩
theorem LeadingByte.ioFailure : LeadingByte.Statement .ioFailure := ⟨rfl, by simp [Instr.id]⟩
theorem LeadingByte.reconnectAttempt : LeadingByte.Statement .reconnectAttempt := ⟨rfl, by simp [Instr.id]⟩
theorem LeadingByte.shutdown : LeadingByte.Statement .shutdown := ⟨rfl, by simp [Instr.id]⟩
theorem LeadingByte.tickFast : LeadingByte.Statement .tickFast := ⟨rfl, by simp [Instr.id]⟩
theorem LeadingByte.tickSlow : LeadingByte.Statement .tickSlow := ⟨rfl, by simp [Instr.id]⟩
theorem LeadingByte.reset : LeadingByte.Statement .reset := ⟨rfl, by simp [Instr.id]⟩
theorem LeadingByte.openAttempt : LeadingByte.Statement .openAttempt := ⟨rfl, by simp [Instr.id]⟩

end Sys2Proof.Laws
end

