-- ==== Sys2Proof/Tests/Slice0.lean ====
section
/-! SUPPORT. Tests. Expected values come from spec/95_test_vectors.md (section named at each), from 30_encoding.md R90, or from the
rule named. Below them, for each statement with hypotheses, a state and operands that meet them. -/

namespace Sys2Proof.Tests

-- One theorem after the other: elaborated all at once, they hold a thread and its stack each.
set_option Elab.async false

open Sys2Proof.Machine

/-- Parameter set A of 95_test_vectors.md section 0, an instance for tests. -/
def setA : Params := ⟨#v[0x22#8, 0x03#8], #v[0x08#8, 0x00#8, 0x25#8, 0x00#8], 1, 2, 5⟩

/-- Parameter set B of the same section. -/
def setB : Params := ⟨#v[0xFF#8, 0xFF#8], #v[0xFF#8, 0xFF#8, 0xFF#8, 0xFF#8], 1, 2, 5⟩

/-- A packet with the given leading bytes, zero after them. -/
def padded (front : List Byte) : Packet :=
  ⟨(front ++ List.replicate 1024 0#8).take 1024, by
    simp only [List.length_take, List.length_append, List.length_replicate]; omega⟩

/-- A packet with one byte throughout. -/
def filled (b : Byte) : Packet := ⟨List.replicate 1024 b, List.length_replicate⟩

/-- A response with `payload_length` 1020 and one byte throughout its payload. -/
def fullResponse (b : Byte) : Packet :=
  ⟨[0, 0, 0, 0, 0xFC#8, 0x03#8, 0, 0, 0, 0, 0, 0] ++ List.replicate 1012 b, by
    simp only [List.length_append, List.length_replicate, List.length_cons, List.length_nil]⟩

/-- The request of set A for offset 0x3F4 (95_test_vectors.md 2.1), written out. -/
def requestA : Packet :=
  padded [0x22#8, 0x03#8, 0x43#8, 0x07#8, 0x08#8, 0x00#8, 0x25#8, 0x00#8, 0xF4#8, 0x03#8, 0x00#8, 0x00#8]

/-- Connected with handle 7, idle. -/
def linked : State := { State.reset with conn := .connected, handle := some 7 }

/-- Connected with handle 7, inside a pull. -/
def pulling (p : Phase) (k : Fin Config.chunks) : State := { linked with phase := p, k := k }

/-- Reconnecting. -/
def lost : State := { State.reset with conn := .reconnecting }

/-- A device that matches. -/
def device : Descriptor := ⟨Config.params.usagePage, 9⟩

/-- What an outcome's next state holds in one field; none where the machine stopped. -/
def after {α : Type} (o : Result) (f : State → α) : Option α :=
  match o with
  | .next t => some (f t)
  | .fault _ => none
  | .refused _ => none

/-! Decoding. -/

/-- The 19 ids of 30_encoding.md R90, written out; the operand of the five with one is left at zeros. -/
theorem test_decode_ids :
    ([0x04#8, 0x05, 0x06, 0x07, 0x08, 0x09, 0x0A, 0x0C, 0x0D, 0x0E, 0x0F, 0x10, 0x11, 0x12].map
      fun b => (decode [b]).toOption) =
    [Instr.pullFrame, .pullStart, .writeStep, .readStep, .rowReverse, .fbZero, .fbSnapshot, .connect, .ioFailure,
      .reconnectAttempt, .shutdown, .tickFast, .tickSlow, .reset].map some := by decide +kernel

theorem test_decode_packet_operands :
    (decode (0x00#8 :: (filled 0xFF#8).bytes)).toOption = some (.checksum16 (filled 0xFF#8)) ∧
    (decode (0x02#8 :: requestA.bytes)).toOption = some (.checkRequest requestA) ∧
    (decode (0x03#8 :: (fullResponse 0xA5#8).bytes)).toOption = some (.extractPayload (fullResponse 0xA5#8)) ∧
    (decode (0x15#8 :: (fullResponse 0xA5#8).bytes)).toOption = some (.rspReadFb (fullResponse 0xA5#8)) ∧
    (decode (0x00#8 :: ((filled 0xFF#8).bytes.drop 1))).toOption = none := by decide +kernel

theorem test_decode_open_attempt : (decode [0x13#8]).toOption = some .openAttempt := by decide +kernel

/-- 20_memory.md R51: the u32 operand is little-endian. -/
theorem test_decode_build : (decode [0x01#8, 0x78#8, 0x56#8, 0x34#8, 0x12#8]).toOption =
    some (.buildRequest 0x12345678#32) := by decide +kernel

/-- Log 5: usage page 256 is the digits 0, 1; path 0 has none. -/
theorem test_decode_select :
    (decode [0x0B#8, 1#8, 1#8, 0#8, 1#8, 1#8, 0#8, 0#8, 0#8]).toOption = some (.selectDevice [⟨256, 0⟩]) ∧
    (decode [0x0B#8, 0#8]).toOption = some (.selectDevice []) ∧
    (decode [0x0B#8, 2#8]).toOption = none := by decide +kernel

/-- 95_test_vectors.md 2.1: the request of set A for 0x3F4, behind the REQ.READ_FB tag. -/
theorem test_decode_request :
    (decodeIn setA (0x14#8 :: requestA.bytes)).toOption = some (.reqReadFb requestA) := by decide +kernel

theorem test_encode_round_trip_of_a_list :
    (decode (encode (.selectDevice [⟨70000, 3⟩, ⟨0, 256⟩]))).toOption =
      some (.selectDevice [⟨70000, 3⟩, ⟨0, 256⟩]) := by decide +kernel

/-- The word of RESET in the table is its id; placed, it is the first operation after reset. -/
theorem test_placed_reset_runs :
    decodeTableWord 8 0x12 = some .reset ∧
    after (step (State.reset.withFetchWord 8 0x12)) (fun t => t.trace) = some [.command .reset] := by decide +kernel

/-- 30_encoding.md R90: FB_ZERO is no command of the host; 41_frame_transfer.md R130: it does not run inside a pull. -/
theorem test_step_bars_fbZero :
    step { State.reset with port := [⟨.host, [0x09#8]⟩] } = .refused .notACommand ∧
    step { pulling .writePhase 3 with port := [⟨.bench, [0x09#8]⟩] } = .refused .pullInProgress := ⟨rfl, rfl⟩

/-- 30_encoding.md R90: the five operations that can be issued from outside, by their ids. -/
theorem test_five_commands :
    ([0x12#8, 0x0C, 0x10, 0x11, 0x0F].map fun b => (decode [b]).toOption.map Instr.kind) =
      List.replicate 5 (some .command) := by decide +kernel

/-! Well-formedness: one ill-formed request for each check of 30_encoding.md R87. -/

theorem test_wellFormed_accepts : Instr.wellFormedIn setA (.reqReadFb requestA) = true := by decide +kernel

theorem test_wellFormed_refuses_wrong_opcode : Instr.wellFormedIn setA (.reqReadFb
    (padded [0x23#8, 0x03#8, 0x44#8, 0x07#8, 0x08#8, 0x00#8, 0x25#8, 0x00#8, 0xF4#8, 0x03#8])) = false := by decide +kernel

theorem test_wellFormed_refuses_wrong_subcommand : Instr.wellFormedIn setA (.reqReadFb
    (padded [0x22#8, 0x03#8, 0x44#8, 0x07#8, 0x09#8, 0x00#8, 0x25#8, 0x00#8, 0xF4#8, 0x03#8])) = false := by decide +kernel

theorem test_wellFormed_refuses_wrong_checksum : Instr.wellFormedIn setA (.reqReadFb
    (padded [0x22#8, 0x03#8, 0x44#8, 0x07#8, 0x08#8, 0x00#8, 0x25#8, 0x00#8, 0xF4#8, 0x03#8])) = false := by decide +kernel

theorem test_wellFormed_refuses_padding_that_is_not_zero : Instr.wellFormedIn setA (.reqReadFb
    (padded [0x22#8, 0x03#8, 0x44#8, 0x07#8, 0x08#8, 0x00#8, 0x25#8, 0x00#8, 0xF4#8, 0x03#8, 0x00#8, 0x00#8, 0x01#8])) =
      false := by decide +kernel

theorem test_decode_refuses_a_packet_that_is_no_request :
    (decodeIn setA (0x14#8 :: (filled 0xFF#8).bytes)).toOption = none := by decide +kernel

/-! The packet codec. -/

/-- 95_test_vectors.md 2.2: 511 words of 0xFFFF. -/
theorem test_checksum16_wraps :
    after (exec (.checksum16 (filled 0xFF#8)) State.reset) (fun t => t.result) = some (.word 0xFE01#16) := by decide +kernel

/-- 95_test_vectors.md 2.1, sets A and B. -/
theorem test_buildRequest_bytes :
    buildRequest setA 0x3F4#32 = requestA ∧
    (buildRequest setA 0xFFFFFFFF#32).bytes.take 12 =
      [0x22#8, 0x03#8, 0x4D#8, 0x03#8, 0x08#8, 0x00#8, 0x25#8, 0x00#8, 0xFF#8, 0xFF#8, 0xFF#8, 0xFF#8] ∧
    (buildRequest setB 0x12345678#32).bytes.take 12 =
      [0xFF#8, 0xFF#8, 0xA9#8, 0x68#8, 0xFF#8, 0xFF#8, 0xFF#8, 0xFF#8, 0x78#8, 0x56#8, 0x34#8, 0x12#8] := by decide +kernel

/-- 95_test_vectors.md 2.1: the last request of a pull in set A. -/
theorem test_last_chunk_request :
    (chunkRequest setA 25).bytes.take 12 =
      [0x22#8, 0x03#8, 0x23#8, 0x66#8, 0x08#8, 0x00#8, 0x25#8, 0x00#8, 0xD4#8, 0x62#8, 0x00#8, 0x00#8] := by decide +kernel

/-- 95_test_vectors.md 2.2: as built; 511 words of 0xFFFF against the stored 0xFFFF. -/
theorem test_checkRequest :
    after (exec (.checkRequest requestA) State.reset) (fun t => t.result) = some (.flag true) ∧
    after (exec (.checkRequest (filled 0xFF#8)) State.reset) (fun t => t.result) = some (.flag false) := by decide +kernel

/-- 95_test_vectors.md 2.3: lengths 7, 8, 9, 308, 1019, 1020, 1021, 32768, 65535. -/
theorem test_extractPayload_lengths :
    ([(0x07#8, 0x00#8), (0x08, 0x00), (0x09, 0x00), (0x34, 0x01), (0xFB, 0x03), (0xFC, 0x03), (0xFD, 0x03), (0x00, 0x80),
        (0xFF, 0xFF)].map fun l => (extractPayload (padded [0, 0, 0, 0, l.1, l.2])).length) =
      [0, 0, 1, 300, 1011, 1012, 1012, 1012, 1012] := by decide +kernel

/-- 95_test_vectors.md P6: `payload_length` 9 gives the single byte at 12. -/
theorem test_extractPayload_one_byte :
    after (exec (.extractPayload (padded [1, 2, 3, 4, 9, 0, 5, 6, 7, 8, 9, 10, 0xAB#8, 0xCD#8]))
      State.reset) (fun t => t.result) =
      some (.bytes [0xAB#8]) := by decide +kernel

/-! Frame transfer. -/

/-- 95_test_vectors.md 2.8: a write error at chunk 0; FB stays, no event, CONN stays. -/
theorem test_pullFrame_write_error :
    after (exec .pullFrame { linked with writes := [.error], fb := [(0, 9#8)] })
      (fun t => (t.result, t.fb, t.conn, t.trace.length)) =
      some (.pulled .errWrite, [(0, 9#8)], .connected, 1) := by decide +kernel

/-- 41_frame_transfer.md R132. -/
theorem test_pullStart : after (exec .pullStart linked) (fun t => (t.phase, t.k)) = some (.writePhase, 0) := by decide +kernel

/-- 41_frame_transfer.md R133: the 26th accepted request opens the read phase; an error drops to Idle. -/
theorem test_writeStep :
    after (exec .writeStep { pulling .writePhase 25 with writes := [.ok] }) (fun t => (t.phase, t.k)) =
      some (.readPhase, 0) ∧
    after (exec .writeStep { pulling .writePhase 5 with writes := [.error] }) (fun t => (t.phase, t.k, t.result)) =
      some (.idle, 0, .raised (.writeFailed 5)) := by decide +kernel

/-- 95_test_vectors.md 2.4: k = 0, payload length 5. -/
theorem test_readStep_short_payload :
    after (exec .readStep { pulling .readPhase 0 with
        reads := [.response (padded [0, 0, 0, 0, 13, 0, 0, 0, 0, 0, 0, 0, 1, 2, 3, 4, 5, 6])] })
      (fun t => (t.fb, t.phase, t.k)) =
      some ([(0, 1#8), (1, 2#8), (2, 3#8), (3, 4#8), (4, 5#8)], .readPhase, 1) := by decide +kernel

/-- 95_test_vectors.md 2.4: k = 25, payload length 301: payload byte 300 is dropped, and the pull ends. -/
theorem test_readStep_last_chunk :
    chunkCopy [] 25 (padded
      ([0, 0, 0, 0, 0x35#8, 0x01#8, 0, 0, 0, 0, 0, 0, 0xA1#8] ++ List.replicate 298 0#8 ++ [0xA2#8, 0xA3#8])) =
      [(25300, 0xA1#8), (25599, 0xA2#8)] ∧
    after (exec .readStep { pulling .readPhase 25 with reads := [.response (fullResponse 0xA5#8)] })
      (fun t => (t.phase, t.k, t.result)) = some (.idle, 0, .pulled .ok) := by decide +kernel

/-- 30_encoding.md R86: the presented response is the answer to the read that is due. -/
theorem test_rspReadFb :
    after (exec (.rspReadFb (padded [0, 0, 0, 0, 9, 0, 0, 0, 0, 0, 0, 0, 0x77#8])) (pulling .readPhase 3))
      (fun t => (t.fb, t.k)) = some ([(3036, 0x77#8)], 4) := by decide +kernel

/-- 30_encoding.md R86: the request that is due goes out, and its answer is the transport's. -/
theorem test_reqReadFb :
    after (exec (.reqReadFb (chunkRequest Config.params 25)) { pulling .writePhase 25 with writes := [.ok] })
      (fun t => (t.phase, t.k)) = some (.readPhase, 0) := by
  simp [exec, execReqReadFb, State.phaseHandle, pulling, linked, after, State.sendRequest, State.writeAnswer,
    State.afterWrite, lastChunk, State.tWrite]

/-! Framebuffer. -/

/-- 95_test_vectors.md 2.5: the first swap takes the byte of address 0 to 25280, the last that of 13119 to 12799. -/
theorem test_rowReverse_first_and_last_swap :
    swapRows [(0, 1#8), (639, 2#8), (13119, 3#8)] 0 = [(639, 2#8), (13119, 3#8), (25280, 1#8)] ∧
    swapRows [(0, 1#8), (639, 2#8), (13119, 3#8)] 39 = [(0, 1#8), (639, 2#8), (12799, 3#8)] := by decide +kernel

/-- 42_framebuffer.md R162. -/
theorem test_fbZero : after (exec .fbZero { linked with fb := [(5, 1#8)] }) (fun t => (t.fb, t.conn)) =
    some ([], .connected) := by decide +kernel

/-- 42_framebuffer.md R163: the bytes in address order. -/
theorem test_fbSnapshot :
    after (exec .fbSnapshot { State.reset with fb := [(1, 7#8), (25599, 8#8)] }) (fun t => match t.result with
      | .bytes bs => bs.take 3
      | _ => []) = some [0#8, 7#8, 0#8] ∧
    memRead [(1, 7#8), (25599, 8#8)] 25597 3 = [0#8, 0#8, 8#8] := by decide +kernel

/-- 95_test_vectors.md 2.5, the pixel view: 1F 00 is blue 31, 34 12 is red 2, green 17, blue 20. -/
theorem test_pixels :
    pixel [(0, 0x1F#8), (2, 0x34#8), (3, 0x12#8)] 0 = 0x001F#16 ∧ pixel [(0, 0x1F#8), (2, 0x34#8), (3, 0x12#8)] 1 = 0x1234#16 ∧
    blue 0x001F#16 = 31#5 ∧ red 0x1234#16 = 2#5 ∧ green 0x1234#16 = 17#6 ∧ blue 0x1234#16 = 20#5 := by decide +kernel

/-! Link control. -/

/-- 95_test_vectors.md 2.6: the first match, not the second; none of one that does not match. -/
theorem test_selectDevice :
    selectDevice 5 [⟨6, 10⟩, ⟨5, 11⟩, ⟨5, 12⟩] = some 11 ∧ selectDevice 5 [⟨6, 10⟩] = none ∧
    after (exec (.selectDevice []) linked) (fun t => t.result) = some (.path none) := by decide +kernel

/-- 95_test_vectors.md S6: no match enters Reconnecting without a handle. -/
theorem test_connect_no_device :
    after (exec .connect { State.reset with enumerations := [[]] }) (fun t => (t.conn, t.handle, t.trace.drop 2)) =
      some (.reconnecting, none, [.connChanged .reconnecting]) := by decide +kernel

/-- 43_link_control.md R173: a match that opens connects. -/
theorem test_connect_opens :
    after (exec .connect { State.reset with enumerations := [[device]], opens := [.handle 3] })
      (fun t => (t.conn, t.handle)) = some (.connected, some 3) := by
  simp [exec, execConnect, State.turnedAway, State.reset, State.firstConnect, State.attempt, State.closeHeld,
    State.searchAndOpen, State.enumAnswer, selectDevice, device, State.openSelected, State.openAnswer, State.attach, after]

/-- 43_link_control.md R172: a stale handle is closed before anything else. -/
theorem test_openAttempt_closes_first :
    after (exec .openAttempt { lost with handle := some 4, enumerations := [[]] })
      (fun t => (t.handle, t.trace.take 1, t.result)) =
      some (none, [.close 4], .attempted (.failure .enumerationFailed)) := by decide +kernel

/-- 10_state.md R22: no attempt runs in Connected, where a failure would leave Connected without a handle. -/
theorem test_openAttempt_not_in_connected :
    exec .openAttempt linked = .refused .preconditionNotMet := rfl

/-- 95_test_vectors.md S7: Reconnecting, FB zero, the handle closed exactly once. -/
theorem test_ioFailure :
    after (exec .ioFailure { linked with fb := [(5, 1#8)] }) (fun t => (t.toBlock, t.trace)) =
      some (⟨.reconnecting, none, [], .idle, 0⟩, [.close 7, .connChanged .reconnecting]) := by decide +kernel

/-- 95_test_vectors.md 2.6, the last row but one: the open fails, the second match is not tried. -/
theorem test_reconnectAttempt_open_fails :
    after (exec .reconnectAttempt { lost with enumerations := [[device, device]], opens := [.error, .handle 3] })
      (fun t => (t.conn, t.handle, t.result, t.opens)) =
      some (.reconnecting, none, .attempted (.failure .openFailed), [.handle 3]) := by
  simp [exec, execReconnectAttempt, State.reconnect, State.attempt, State.closeHeld, lost, State.reset,
    State.searchAndOpen, State.enumAnswer, selectDevice, device, State.openSelected, State.openAnswer, after,
    State.tEnumerate, State.tOpen]

/-- 43_link_control.md R177: the handle is closed, FB stays. -/
theorem test_shutdown :
    after (exec .shutdown { linked with fb := [(5, 1#8)] }) (fun t => (t.toBlock, t.trace)) =
      some (⟨.disconnected, none, [(5, 1#8)], .idle, 0⟩, [.command .shutdown, .close 7]) := by decide +kernel

/-! The ticks and RESET. -/

/-- 95_test_vectors.md 2.7: REPAINT in Reconnecting; a write error at chunk 0 in Connected. -/
theorem test_tickFast :
    after (exec .tickFast lost) (fun t => t.trace) = some [.command .tickFast, .repaint] ∧
    after (exec .tickFast { linked with writes := [.error] }) (fun t => (t.conn, t.handle, t.trace.drop 2)) =
      some (.reconnecting, none, [.close 7, .connChanged .reconnecting]) := by decide +kernel

/-- 95_test_vectors.md 2.7: nothing in Connected; a failed attempt in Reconnecting emits nothing. -/
theorem test_tickSlow :
    after (exec .tickSlow linked) (fun t => t.trace) = some [.command .tickSlow] ∧
    after (exec .tickSlow { lost with enumerations := [[]] }) (fun t => (t.conn, t.trace.length)) =
      some (.reconnecting, 2) := by decide +kernel

/-- 70_reset_and_hazards.md R230: in the middle of a pull, and no close. -/
theorem test_reset :
    after (exec .reset { pulling .readPhase 9 with fb := [(5, 1#8)] })
      (fun t => (t.toBlock, t.trace)) = some (⟨.disconnected, none, [], .idle, 0⟩, [.command .reset]) := by decide +kernel

/-! Witnesses: for each statement with hypotheses, a state and operands that meet them, at the boundary values of its
ranges. -/

/-- A response with `payload_length` 308: exactly the 300 bytes that fit at chunk 25. -/
def lastResponse : Packet := padded [0, 0, 0, 0, 0x34#8, 0x01#8]

/-- A pull's 26 answers of `T.write`, all accepted. -/
def accepted : List WriteAnswer := List.replicate 26 .ok

theorem witness_EncodedOperationDecodes :
    Instr.wellFormed (.selectDevice [⟨70000, 3⟩]) = true ∧ Instr.wellFormed (.buildRequest 0xFFFFFFFF#32) = true ∧
    Instr.wellFormed .reset = true := ⟨rfl, rfl, rfl⟩

theorem witness_DecodedOperationIsWellFormed : decode [0x12#8, 0#8] = .ok .reset := rfl

theorem witness_UnknownIdsAreRejected : 0x16 ≤ (0x16#8).toNat ∧ 0x16 ≤ (0xFF#8).toNat := by decide

/-- The clauses in order: what a host and what a bench presents, what each may not, bytes that do not decode, and nothing. -/
theorem witness_StepRunsPresentedOperation :
    (decode [0x10#8] = .ok .tickFast ∧ Instr.tickFast.kind = .command) ∧
    (decode [0x06#8] = .ok .writeStep ∧ (Source.bench = .host → Instr.writeStep.kind = .command) ∧
      Instr.writeStep.kind.runsInPull = true) ∧
    (decode [0x09#8] = .ok .fbZero ∧ Instr.fbZero.kind ≠ .command ∧ (pulling .writePhase 25).phase ≠ .idle ∧
      Instr.fbZero.kind.runsInPull = false) ∧
    decode [0x16#8] = .error (.unknownOperation 0x16#8) ∧
    (pulling .writePhase 25).port = [] ∧ (pulling .writePhase 25).phase = .writePhase ∧
    (pulling .readPhase 0).port = [] ∧ (pulling .readPhase 0).phase = .readPhase ∧
    State.reset.port = [] ∧ State.reset.phase = .idle :=
  ⟨⟨rfl, rfl⟩, ⟨rfl, by decide, rfl⟩, ⟨rfl, by decide, by decide, rfl⟩, rfl, rfl, rfl, rfl, rfl, rfl, rfl⟩

/-- Between commands, and inside a pull. -/
theorem witness_PlacedTableWordRuns :
    decodeTableWord 8 0x10 = some .tickFast ∧ State.reset.phase = .idle ∧
    decodeTableWord 8 0x06 = some .writeStep ∧ Instr.writeStep.kind.runsInPull = true := by decide +kernel

/-- For OnlyTheFiveCommandsComeFromOutside and HostRunsStayBetweenCommands. -/
theorem witness_HostOnly :
    State.HostOnly { lost with port := [⟨.host, [0x10#8]⟩] } ∧ lost.phase = .idle ∧ lost.k = 0 ∧
    after (step { lost with port := [⟨.host, [0x10#8]⟩] }) (fun t => t.port) = some [] := by
  refine ⟨?_, rfl, rfl, by decide +kernel⟩
  simp [State.HostOnly]

/-- The three cases: a pure function, RESET, and the transaction that is due. -/
theorem witness_NothingRunsBetweenTheStepsOfAPull :
    (pulling .writePhase 0).phase ≠ .idle ∧
    after (step { pulling .writePhase 0 with port := [⟨.bench, [0x01#8, 0#8, 0#8, 0#8, 0#8]⟩] }) (fun t => t.phase) =
      some .writePhase ∧
    after (step { pulling .writePhase 0 with port := [⟨.host, [0x12#8]⟩] }) (fun t => t.phase) = some .idle ∧
    after (step { pulling .readPhase 0 with reads := [.errorOrTimeout] }) (fun t => t.phase) = some .idle := by
  decide +kernel

theorem witness_ranges_of_bytes_and_rows :
    (12 ≤ 12 ∧ 12 < 1024) ∧ (12 ≤ 1023 ∧ 1023 < 1024) ∧ (0 < 80 ∧ 0 < 320) ∧ (79 < 80 ∧ 319 < 320) ∧ 25599 < 25600 := by
  decide

theorem witness_CheckRequestValidatesTheChecksum :
    checkRequest (padded []) = true ∧ (∀ i, i ≠ 0 → (padded [1#8]).byte i = (padded []).byte i) ∧
    (padded [1#8]).byte 0 ≠ (padded []).byte 0 := by
  refine ⟨by decide +kernel, ?_, by decide +kernel⟩
  intro i hi
  obtain ⟨j, rfl⟩ := Nat.exists_eq_succ_of_ne_zero hi
  by_cases hj : j + 1 < 1024
  · simp [padded, Packet.byte, hj, -List.reduceReplicate]
  · simp [padded, Packet.byte, hj, -List.reduceReplicate]

theorem witness_RowReverseIsAnInvolution :
    Memory.wf [(0, 1#8), (25599, 2#8)] ∧ ∀ a, readByte [] a = 0#8 := ⟨by decide +kernel, fun _ => rfl⟩

/-- For PullStartEntersTheWritePhase, PullFrameAlwaysEnds, IoFailureClosesAndZeroes, TickFastWhenConnectedEnds and
SequencerRefinesPullFrame. -/
theorem witness_linked :
    linked.inService = true ∧ linked.conn = .connected ∧ linked.handle = some 7 ∧ linked.phase = .idle ∧
    linked.port = [] := ⟨rfl, rfl, rfl, rfl, rfl⟩

theorem witness_WriteStepSendsTheRequest :
    (pulling .writePhase 24).phase = .writePhase ∧ (pulling .writePhase 24).handle = some 7 ∧
    State.writeAnswer { pulling .writePhase 24 with writes := [.ok] } = .ok ∧
    (25 : Fin 26).val = (pulling .writePhase 24).k.val + 1 ∧ (1 : Fin 26).val = (pulling .writePhase 0).k.val + 1 ∧
    (pulling .writePhase 25).k.val = 25 ∧
    State.writeAnswer { pulling .writePhase 0 with writes := [.error] } = .error := by decide +kernel

theorem witness_ReadStepCopiesTheChunk :
    (pulling .readPhase 24).phase = .readPhase ∧ (pulling .readPhase 24).handle = some 7 ∧
    State.readAnswer { pulling .readPhase 24 with reads := [.response lastResponse] } = .response lastResponse ∧
    (25 : Fin 26).val = (pulling .readPhase 24).k.val + 1 ∧ (1 : Fin 26).val = (pulling .readPhase 0).k.val + 1 ∧
    (pulling .readPhase 25).k.val = 25 ∧
    State.readAnswer { pulling .readPhase 0 with reads := [.errorOrTimeout] } = .errorOrTimeout :=
  ⟨rfl, rfl, rfl, rfl, rfl, rfl, rfl⟩

theorem witness_ResponsePacketActsAsReadStep :
    (pulling .readPhase 25).phase = .readPhase ∧ (pulling .readPhase 25).handle = some 7 := ⟨rfl, rfl⟩

theorem witness_RequestPacketActsAsWriteStep :
    (pulling .writePhase 0).phase = .writePhase ∧ (pulling .writePhase 0).handle = some 7 ∧
    filled 0xFF#8 ≠ requestFor (pulling .writePhase 0).k.val := by
  refine ⟨rfl, rfl, fun h => ?_⟩
  have h12 := congrArg (fun p => Packet.byte p 12) h
  simp only [requestFor, buildRequest, reqLayout, Packet.byte, reqBytes_eq] at h12
  simp [filled, padding, -List.reduceReplicate] at h12

theorem witness_UnnamedResponseBytesHaveNoInfluence :
    (∀ i, i = 4 ∨ i = 5 ∨ 12 ≤ i → (padded [1#8, 2#8, 3#8, 4#8]).byte i = (padded []).byte i) ∧
    (∃ t, exec (.rspReadFb (padded [1#8, 2#8, 3#8, 4#8])) (pulling .readPhase 0) = .next t) ∧
    ∃ t, exec (.rspReadFb (padded [])) (pulling .readPhase 0) = .next t := by
  refine ⟨?_, ⟨_, rfl⟩, ⟨_, rfl⟩⟩
  intro i hi
  obtain ⟨j, rfl⟩ : ∃ j, i = j + 4 := ⟨i - 4, by omega⟩
  by_cases hj : j + 4 < 1024
  · simp [padded, Packet.byte, hj, -List.reduceReplicate]
  · simp [padded, Packet.byte, hj, -List.reduceReplicate]

/-- Chunk 0 and chunk 25 fail. -/
theorem witness_PullFrameWriteFailureLeavesFb :
    ({ linked with writes := [.error] } : State).writes = List.replicate 0 .ok ++ .error :: [] ∧
    ({ linked with writes := List.replicate 25 .ok ++ [.error] } : State).writes =
      List.replicate 25 .ok ++ .error :: [] := ⟨rfl, rfl⟩

/-- The read of chunk 0 and the read of chunk 25 fail. -/
theorem witness_PullFrameReadFailureKeepsEarlierChunks :
    accepted = List.replicate 26 .ok ++ [] ∧ ([] : List Packet).length < 26 ∧
    ([.errorOrTimeout] : List ReadAnswer) = ([] : List Packet).map .response ++ .errorOrTimeout :: [] ∧
    (List.replicate 25 lastResponse).length < 26 := by
  refine ⟨rfl, by decide, rfl, ?_⟩
  rw [List.length_replicate]; decide

/-- For PullFrameTakesEveryResponse: short, odd and full payloads. -/
theorem witness_PullFrameTakesEveryResponse :
    (List.replicate 25 (padded [0, 0, 0, 0, 13#8]) ++ [fullResponse 0xA5#8]).length = 26 ∧
    payloadBytes (padded [0, 0, 0, 0, 13#8]) = 5 ∧ accepted = List.replicate 26 .ok ++ [] := by
  refine ⟨?_, by decide +kernel, rfl⟩
  rw [List.length_append, List.length_replicate]; rfl

theorem witness_FullFrameIsReassembled :
    (List.replicate 26 (fullResponse 0xA5#8)).length = 26 ∧ payloadBytes (fullResponse 0xA5#8) = 1012 ∧
    payloadBytes lastResponse = 300 ∧ accepted = List.replicate 26 .ok ++ [] := by
  refine ⟨List.length_replicate, by decide +kernel, by decide +kernel, rfl⟩

theorem witness_SelectDevicePicksTheFirstMatch :
    (∀ d ∈ [(⟨Config.params.usagePage + 1, 1⟩ : Descriptor)], d.usagePage ≠ Config.params.usagePage) ∧
    device.usagePage = Config.params.usagePage ∧
    [⟨Config.params.usagePage + 1, 1⟩, device, device] = [⟨Config.params.usagePage + 1, 1⟩] ++ device :: [device] := by
  refine ⟨?_, rfl, rfl⟩
  simp

/-- The three outcomes of an open attempt. For OpenAttemptHasThreeOutcomes (also with a stale handle to close, see
test_openAttempt_closes_first),
ConnectEndsConnectedOrReconnecting, ReconnectAttemptConnectsOrChangesNothing and TickSlowReconnects, whose hypotheses on the
registers stand in witness_unlinked. -/
theorem witness_attempts (s : State) :
    selectDevice Config.params.usagePage (State.enumAnswer { s with enumerations := [[]] }) = none ∧
    selectDevice Config.params.usagePage (State.enumAnswer { s with enumerations := [[device]] }) = some 9 ∧
    (State.tEnumerate { s with opens := [.error] }).openAnswer = .error ∧
    (State.tEnumerate { s with opens := [.handle 3] }).openAnswer = .handle 3 := by
  refine ⟨rfl, ?_, rfl, rfl⟩
  simp [State.enumAnswer, selectDevice, device]

/-- Also for TickFastRepaintsWhenNotConnected, TickSlowDoesNothingWhenNotReconnecting and ShutdownClosesAndLeavesOnlyReset. -/
theorem witness_unlinked :
    State.reset.conn = .disconnected ∧ State.reset.handle = none ∧ State.reset.phase = .idle ∧
    State.reset.inService = true ∧ lost.conn = .reconnecting ∧ lost.handle = none ∧ lost.phase = .idle ∧
    lost.inService = true := ⟨rfl, rfl, rfl, rfl, rfl, rfl, rfl, rfl⟩

/-- A write fails at chunk 25; a read fails at chunk 0. -/
theorem witness_FailedPullEntersOneFixedState :
    (25 < 26 ∧ ({ linked with writes := List.replicate 25 .ok ++ [.error] } : State).writes =
      List.replicate 25 .ok ++ .error :: []) ∧
    accepted = List.replicate 26 .ok ++ [] ∧
    ({ linked with reads := [.errorOrTimeout] } : State).reads = ([] : List Packet).map .response ++ .errorOrTimeout :: [] :=
  ⟨⟨by decide, rfl⟩, rfl, rfl⟩

theorem witness_FailedRetriesAccumulateNothing :
    ([⟨.host, [0x11#8]⟩, ⟨.host, [0x11#8]⟩] : List Presented) = List.replicate 2 ⟨.host, encode .tickSlow⟩ ++ [] ∧
    [OpenAnswer.error, .error] = List.replicate 2 .error ++ [] := ⟨rfl, rfl⟩

theorem witness_UntimelyCommandsAreRefused :
    (pulling .readPhase 0).inService = true ∧ (pulling .readPhase 0).phase ≠ .idle ∧
    ({ State.reset with inService := false } : State).inService = false ∧
    linked.conn ≠ .disconnected ∧ lost.conn ≠ .disconnected := by decide +kernel

/-- The last: Connected without a handle, which no run reaches. -/
theorem witness_UnmetPreconditionsStop :
    ¬(lost.conn = .connected ∧ lost.phase = .idle ∧ lost.handle.isSome = true) ∧
    ¬(linked.phase = .writePhase ∧ linked.handle.isSome = true) ∧
    ¬(linked.phase = .readPhase ∧ linked.handle.isSome = true) ∧
    ¬(linked.conn = .reconnecting ∧ linked.phase = .idle) ∧
    ({ linked with handle := none } : State).conn = .connected := by decide +kernel

/-- For StepKeepsSound and SoundStepNeverFaults. -/
theorem witness_StepKeepsSound :
    State.Sound { linked with port := [⟨.bench, [0x05#8]⟩] } ∧
    State.presented { linked with port := [⟨.bench, [0x05#8]⟩] } = some .pullStart ∧
    step { linked with port := [⟨.bench, [0x05#8]⟩] } = .next ((linked.setPc .writePhase 0).setResult .nothing) := by
  refine ⟨⟨by decide, by decide, by decide, by decide, by decide⟩, rfl, rfl⟩

theorem witness_StepKeepsHandlesBalanced :
    State.HandlesBalanced { linked with trace := [.openPath 9 (.handle 7)], port := [⟨.bench, [0x05#8]⟩] } ∧
    ∃ t, step { linked with trace := [.openPath 9 (.handle 7)], port := [⟨.bench, [0x05#8]⟩] } = .next t := by
  refine ⟨fun h => ?_, ⟨_, rfl⟩⟩
  by_cases hh : (7 : Nat) = h
  · subst hh; rfl
  · simp [openedCount, closedCount, linked, hh]

/-- For OnlyTheListedOperationsWriteFb and OnlyLinkControlWritesConnAndHandle. -/
theorem witness_pullStart_completes : ∃ t, exec .pullStart linked = .next t := ⟨_, rfl⟩

/-- Also for EventsComeFromTheListedOperations. -/
theorem witness_ConnMovesAlongTheDiagram :
    (∃ t, exec .shutdown linked = .next t ∧ t.conn = .disconnected) ∧
    (∃ t, exec .ioFailure linked = .next t ∧ t.conn = .reconnecting) ∧
    ∃ t, exec .openAttempt { lost with enumerations := [[device]], opens := [.handle 3] } = .next t ∧
      t.conn = .connected := by
  refine ⟨⟨_, rfl, rfl⟩, ⟨_, rfl, rfl⟩, ⟨_, rfl, ?_⟩⟩
  simp [State.attempt, State.closeHeld, lost, State.reset, State.searchAndOpen, State.enumAnswer, selectDevice, device,
    State.openSelected, State.openAnswer, State.attach, State.tEnumerate, State.tOpen]

theorem witness_OnlyChunkRequestsGoOutOnTheHeldHandle :
    (∃ t, exec .writeStep { pulling .writePhase 25 with writes := [.ok] } = .next t ∧
      t.trace = [.write 7 (chunkRequest Config.params 25) .ok]) ∧
    ∃ t, exec .readStep { pulling .readPhase 0 with reads := [.errorOrTimeout] } = .next t ∧
      t.trace = [.read 7 2000 .errorOrTimeout] := ⟨⟨_, rfl, rfl⟩, ⟨_, rfl, rfl⟩⟩

end Sys2Proof.Tests
end

section
/-! PROOFS. What each operation emits (00_scope.md R11). A run is read through its events alone; transactions and accepted
commands are passed over. For each shared operation one lemma says what it emits, then one for each meaning, and O54 is read
off. -/

namespace Sys2Proof.Machine

/-! The events of a run. -/

/-- The output events of the display port (00_scope.md R11) among the lines of a run. -/
def Label.isEvent : Label → Bool
  | .frameReady _ | .connChanged _ | .repaint => true
  | _ => false

/-- The run of `t` is that of `s` with lines added whose events, in order, are `es`. -/
def State.Emits (s t : State) (es : List Label) : Prop :=
  ∃ run, t.trace = s.trace ++ run ∧ run.filter Label.isEvent = es

variable {s t : State}

theorem emits_of_trace_eq (h : t.trace = s.trace) : s.Emits t [] := ⟨[], by rw [h, List.append_nil], rfl⟩

theorem emits_nil_of_forall {run : List Label} (h : t.trace = s.trace ++ run) (hr : ∀ l ∈ run, l.isEvent = false) :
    s.Emits t [] := ⟨run, h, List.filter_eq_nil_iff.2 fun l hl => by simp [hr l hl]⟩

theorem State.Emits.trans {u : State} {es fs : List Label} (h₁ : s.Emits t es) (h₂ : t.Emits u fs) :
    s.Emits u (es ++ fs) := by
  obtain ⟨run₁, ht, rfl⟩ := h₁
  obtain ⟨run₂, hu, rfl⟩ := h₂
  exact ⟨run₁ ++ run₂, by rw [hu, ht, List.append_assoc], List.filter_append ..⟩

theorem log_emits (s : State) (l : Label) : s.Emits (s.log l) ([l].filter Label.isEvent) := ⟨[l], rfl, rfl⟩

/-! What the shared operations emit. -/

theorem sendRequest_emits (s : State) (h : Handle) (q : Packet) : s.Emits (s.sendRequest h q) [] := by
  cases ha : s.writeAnswer with
  | ok =>
    rw [sendRequest_ok ha, afterWrite_eq]
    split <;> exact ⟨[_], rfl, rfl⟩
  | error =>
    rw [sendRequest_error ha]
    exact ⟨[_], rfl, rfl⟩

theorem acceptResponse_trace (s : State) (r : Packet) : (s.acceptResponse r).trace = s.trace := by
  rw [acceptResponse_eq]
  split <;> rfl

theorem tRead_emits (s : State) (h : Handle) : s.Emits (s.tRead h) [] := ⟨[_], rfl, rfl⟩

theorem tReadOf_emits (s : State) (h : Handle) (r : Packet) : s.Emits (s.tReadOf h r) [] := ⟨[_], rfl, rfl⟩

theorem receiveResponse_emits (s : State) (h : Handle) : s.Emits (s.receiveResponse h) [] := by
  cases ha : s.readAnswer with
  | response r =>
    rw [receiveResponse_response ha]
    exact (tRead_emits s h).trans (emits_of_trace_eq (acceptResponse_trace _ r))
  | errorOrTimeout =>
    rw [receiveResponse_error ha]
    exact tRead_emits s h

theorem pull_emits (s : State) (h : Handle) : s.Emits (s.pull h).2 [] := by
  obtain ⟨m, ws, rs, n, run, hp, -, hrun⟩ := pull_frame h s
  refine emits_nil_of_forall (by rw [hp]) fun l hl => ?_
  obtain ⟨q, a, rfl⟩ | ⟨a, rfl⟩ := hrun l hl <;> rfl

theorem pull_conn (s : State) (h : Handle) : (s.pull h).2.conn = s.conn := by
  obtain ⟨m, ws, rs, n, run, hp, -, -⟩ := pull_frame h s
  rw [hp]

theorem closeHeld_emits (s : State) : s.Emits s.closeHeld [] :=
  emits_nil_of_forall (run := closeRun s.handle) (by rw [closeHeld_eq]) (by cases s.handle <;> simp [closeRun, Label.isEvent])

/-- Neither search nor open emits anything: the event is the caller's (43_link_control.md R172). -/
theorem attempt_emits (s : State) : s.Emits s.attempt.2 [] := by
  have searched : s.Emits s.closeHeld.tEnumerate [] := (closeHeld_emits s).trans ⟨[_], rfl, rfl⟩
  have opened (p : Path) : s.Emits (s.closeHeld.tEnumerate.tOpen p) [] := searched.trans ⟨[_], rfl, rfl⟩
  obtain ⟨-, ha⟩ | ⟨p, -, ⟨-, ha⟩ | ⟨h, -, ha⟩⟩ := attempt_cases s <;> rw [ha]
  · exact searched
  · exact opened p
  · exact opened p

theorem attempt_success_or_failure (s : State) :
    (∃ t, s.attempt = (.success, t) ∧ t.conn = .connected) ∨ ∃ e t, s.attempt = (.failure e, t) := by
  obtain ⟨-, ha⟩ | ⟨p, -, ⟨-, ha⟩ | ⟨h, -, ha⟩⟩ := attempt_cases s
  · exact .inr ⟨_, _, ha⟩
  · exact .inr ⟨_, _, ha⟩
  · exact .inl ⟨_, ha, rfl⟩

theorem ioFailure_emits (s : State) (h : Handle) : s.Emits (s.ioFailure h) [.connChanged .reconnecting] :=
  ⟨[.close h, .connChanged .reconnecting], by rw [ioFailure_eq], rfl⟩

theorem ioFailure_conn (s : State) (h : Handle) : (s.ioFailure h).conn = .reconnecting := by rw [ioFailure_eq]

/-- A first attempt always reports, Connected or Reconnecting (43_link_control.md R173). -/
theorem firstConnect_emits (s : State) :
    ∃ c, s.Emits s.firstConnect [.connChanged c] ∧ s.firstConnect.conn = c ∧ c ≠ .disconnected := by
  have he := attempt_emits s
  unfold State.firstConnect
  obtain ⟨t, ha, hc⟩ | ⟨e, t, ha⟩ := attempt_success_or_failure s <;> rw [ha] at he ⊢
  · exact ⟨_, he.trans (log_emits t (.connChanged .connected)), hc, by simp⟩
  · exact ⟨_, he.trans (log_emits _ (.connChanged .reconnecting)), rfl, by simp⟩

/-- A reconnect attempt reports a success and is silent on a failure (43_link_control.md R175). -/
theorem reconnect_emits (s : State) :
    ∃ t, (s.reconnect = (.success, t) ∧ t.conn = .connected ∧ s.Emits t [.connChanged .connected]) ∨
      ∃ e, s.reconnect = (.failure e, t) ∧ s.Emits t [] := by
  have he := attempt_emits s
  unfold State.reconnect
  obtain ⟨t, ha, hc⟩ | ⟨e, t, ha⟩ := attempt_success_or_failure s <;> rw [ha] at he ⊢
  · exact ⟨_, .inl ⟨rfl, hc, he.trans (log_emits t _)⟩⟩
  · exact ⟨t, .inr ⟨e, rfl, he⟩⟩

/-- A pull is followed by its frame, or by failure entry (44_scheduler.md R190). -/
theorem pullAndReport_emits (s : State) (h : Handle) :
    ((s.pullAndReport h).conn = s.conn ∧ s.Emits (s.pullAndReport h) [.frameReady (snapshot (s.pullAndReport h).fb)]) ∨
    ((s.pullAndReport h).conn = .reconnecting ∧ s.Emits (s.pullAndReport h) [.connChanged .reconnecting]) := by
  have hc := pull_conn s h
  have he := pull_emits s h
  unfold State.pullAndReport
  generalize s.pull h = p at hc he ⊢
  obtain ⟨r, t⟩ := p
  cases r with
  | ok => exact .inl ⟨hc, he.trans (log_emits t _)⟩
  | errWrite => exact .inr ⟨ioFailure_conn t h, he.trans (ioFailure_emits t h)⟩
  | errRead => exact .inr ⟨ioFailure_conn t h, he.trans (ioFailure_emits t h)⟩

/-- A successful attempt of the slow tick is followed by the frame (44_scheduler.md R191). -/
theorem reconnectAndReport_emits (s : State) :
    s.Emits s.reconnectAndReport [] ∨
    (s.reconnectAndReport.conn = .connected ∧
      s.Emits s.reconnectAndReport [.connChanged .connected, .frameReady (snapshot s.reconnectAndReport.fb)]) := by
  unfold State.reconnectAndReport
  obtain ⟨t, ⟨hr, hc, he⟩ | ⟨e, hr, he⟩⟩ := reconnect_emits s <;> rw [hr]
  · exact .inr ⟨hc, he.trans (log_emits t _)⟩
  · exact .inl he

/-! What each operation emits. -/

/-- The operations that report a move of CONN (the spec's decision D12). -/
def ReportsConn (i : Instr) : Prop :=
  i = .connect ∨ i = .ioFailure ∨ i = .reconnectAttempt ∨ i = .tickFast ∨ i = .tickSlow

/-- The event sequences an operation may add between `s` and `t`. -/
inductive MayEmit (i : Instr) (s t : State) : List Label → Prop
  | nothing : MayEmit i s t []
  | move (hi : ReportsConn i) (hc : t.conn ≠ s.conn) : MayEmit i s t [.connChanged t.conn]
  | frame (hi : i = .tickFast) (hc : t.conn = .connected) : MayEmit i s t [.frameReady (snapshot t.fb)]
  | moveAndFrame (hi : i = .tickSlow) (hs : s.conn ≠ .connected) (hc : t.conn = .connected) :
      MayEmit i s t [.connChanged t.conn, .frameReady (snapshot t.fb)]
  | repaint (hi : i = .tickFast) (hs : s.conn ≠ .connected) (hb : t.toBlock = s.toBlock) : MayEmit i s t [.repaint]

/-- What the operation added to the run is one of the sequences it may add. -/
def EmitsAsListed (i : Instr) (s t : State) : Prop := ∃ es, s.Emits t es ∧ MayEmit i s t es

variable {i : Instr}

theorem emitsAsListed_of_nil (h : s.Emits t []) : EmitsAsListed i s t := ⟨[], h, .nothing⟩

theorem emitsAsListed_of_trace_eq (h : t.trace = s.trace) : EmitsAsListed i s t := emitsAsListed_of_nil (emits_of_trace_eq h)

theorem emitsAsListed_of_move {c : Conn} (h : s.Emits t [.connChanged c]) (hi : ReportsConn i) (ht : t.conn = c)
    (hc : c ≠ s.conn) : EmitsAsListed i s t := by
  subst ht
  exact ⟨_, h, .move hi hc⟩

theorem execReqReadFb_emits {q : Packet} (h : execReqReadFb q s = .next t) : EmitsAsListed i s t := by
  unfold execReqReadFb at h
  split at h
  · split at h
    · cases h; exact emitsAsListed_of_nil (sendRequest_emits s _ q)
    · cases h
  · cases h

theorem execRspReadFb_emits {r : Packet} (h : execRspReadFb r s = .next t) : EmitsAsListed i s t := by
  unfold execRspReadFb at h
  split at h
  · cases h
    exact emitsAsListed_of_nil ((tReadOf_emits s _ r).trans (emits_of_trace_eq (acceptResponse_trace _ r)))
  · cases h

theorem execPullFrame_emits (h : execPullFrame s = .next t) : EmitsAsListed i s t := by
  unfold execPullFrame at h
  split at h
  · cases h; exact emitsAsListed_of_nil (pull_emits s _)
  · cases h

theorem execPullStart_emits (h : execPullStart s = .next t) : EmitsAsListed i s t := by
  unfold execPullStart at h
  split at h
  · cases h; exact emitsAsListed_of_trace_eq rfl
  · cases h

theorem execWriteStep_emits (h : execWriteStep s = .next t) : EmitsAsListed i s t := by
  unfold execWriteStep at h
  split at h
  · cases h; exact emitsAsListed_of_nil (sendRequest_emits s _ _)
  · cases h

theorem execReadStep_emits (h : execReadStep s = .next t) : EmitsAsListed i s t := by
  unfold execReadStep at h
  split at h
  · cases h; exact emitsAsListed_of_nil (receiveResponse_emits s _)
  · cases h

theorem execOpenAttempt_emits (h : execOpenAttempt s = .next t) : EmitsAsListed i s t := by
  unfold execOpenAttempt at h
  split at h
  · cases h
  · split at h
    · cases h
    · cases h; exact emitsAsListed_of_nil (attempt_emits s)
    · cases h; exact emitsAsListed_of_nil (attempt_emits s)

theorem execConnect_emits (h : execConnect s = .next t) : EmitsAsListed .connect s t := by
  unfold execConnect at h
  split at h
  · cases h
  · split at h
    · rename_i hs
      cases h
      obtain ⟨c, he, ht, hc⟩ := firstConnect_emits (s.log (.command .connect))
      exact emitsAsListed_of_move ((log_emits s (.command .connect)).trans he) (.inl rfl) ht (by rwa [hs])
    · cases h
    · cases h

theorem execIoFailure_emits (h : execIoFailure s = .next t) : EmitsAsListed .ioFailure s t := by
  unfold execIoFailure at h
  split at h
  · rename_i hd hf
    cases h
    obtain ⟨hs, -, -⟩ := failingHandle_eq_some_iff.1 hf
    exact emitsAsListed_of_move (ioFailure_emits s hd) (.inr (.inl rfl)) (ioFailure_conn s hd) (by simp [hs])
  · cases h

theorem execReconnectAttempt_emits (h : execReconnectAttempt s = .next t) : EmitsAsListed .reconnectAttempt s t := by
  unfold execReconnectAttempt at h
  split at h
  · rename_i hpre
    obtain ⟨hs, -⟩ := hpre
    cases h
    obtain ⟨t, ⟨hr, hc, he⟩ | ⟨e, hr, he⟩⟩ := reconnect_emits s <;> rw [hr]
    · exact emitsAsListed_of_move he (.inr (.inr (.inl rfl))) hc (by simp [hs])
    · exact emitsAsListed_of_nil he
  · cases h

theorem execShutdown_emits (h : execShutdown s = .next t) : EmitsAsListed i s t := by
  unfold execShutdown at h
  split at h
  · cases h
  · cases h
    exact emitsAsListed_of_nil ((log_emits s (.command .shutdown)).trans (closeHeld_emits _))

theorem execTickFast_emits (h : execTickFast s = .next t) : EmitsAsListed .tickFast s t := by
  have repainted (hs : s.conn ≠ .connected) :
      EmitsAsListed .tickFast s (((s.log (.command .tickFast)).log .repaint).setResult .nothing) :=
    ⟨[.repaint], (log_emits s (.command .tickFast)).trans (log_emits _ .repaint), .repaint rfl hs rfl⟩
  unfold execTickFast at h
  split at h
  · cases h
  · split at h
    · rename_i hs
      split at h
      · rename_i hd _
        cases h
        have accepted := log_emits s (.command .tickFast)
        obtain ⟨hc, he⟩ | ⟨hc, he⟩ := pullAndReport_emits (s.log (.command .tickFast)) hd
        · exact ⟨_, accepted.trans he, .frame rfl (hc.trans hs)⟩
        · exact emitsAsListed_of_move (accepted.trans he) (.inr (.inr (.inr (.inl rfl)))) hc (by simp [hs])
      · cases h
    · rename_i hs
      cases h; exact repainted (by simp [hs])
    · rename_i hs
      cases h; exact repainted (by simp [hs])

theorem execTickSlow_emits (h : execTickSlow s = .next t) : EmitsAsListed .tickSlow s t := by
  have accepted := log_emits s (.command .tickSlow)
  unfold execTickSlow at h
  split at h
  · cases h
  · split at h
    · rename_i hs
      cases h
      obtain he | ⟨hc, he⟩ := reconnectAndReport_emits (s.log (.command .tickSlow))
      · exact emitsAsListed_of_nil (accepted.trans he)
      · rw [← hc] at he
        exact ⟨_, accepted.trans he, .moveAndFrame rfl (by simp [hs]) hc⟩
    · cases h; exact emitsAsListed_of_nil accepted
    · cases h; exact emitsAsListed_of_nil accepted

/-- Whatever operation completes, what it emits is listed for it. -/
theorem exec_emits (h : exec i s = .next t) : EmitsAsListed i s t := by
  cases i with
  | reqReadFb q => exact execReqReadFb_emits h
  | rspReadFb r => exact execRspReadFb_emits h
  | checksum16 q => cases h; exact emitsAsListed_of_trace_eq rfl
  | buildRequest o => cases h; exact emitsAsListed_of_trace_eq rfl
  | checkRequest q => cases h; exact emitsAsListed_of_trace_eq rfl
  | extractPayload r => cases h; exact emitsAsListed_of_trace_eq rfl
  | pullFrame => exact execPullFrame_emits h
  | pullStart => exact execPullStart_emits h
  | writeStep => exact execWriteStep_emits h
  | readStep => exact execReadStep_emits h
  | rowReverse => cases h; exact emitsAsListed_of_trace_eq rfl
  | fbZero => cases h; exact emitsAsListed_of_trace_eq rfl
  | fbSnapshot => cases h; exact emitsAsListed_of_trace_eq rfl
  | selectDevice ds => cases h; exact emitsAsListed_of_trace_eq rfl
  | openAttempt => exact execOpenAttempt_emits h
  | connect => exact execConnect_emits h
  | ioFailure => exact execIoFailure_emits h
  | reconnectAttempt => exact execReconnectAttempt_emits h
  | shutdown => exact execShutdown_emits h
  | tickFast => exact execTickFast_emits h
  | tickSlow => exact execTickSlow_emits h
  | reset => cases h; exact emitsAsListed_of_nil (log_emits s (.command .reset))

/-! Each event, read off the listed sequences. -/

theorem MayEmit.connChanged {es : List Label} {c : Conn} (h : MayEmit i s t es) (hl : Label.connChanged c ∈ es) :
    c = t.conn ∧ c ≠ s.conn ∧ ReportsConn i := by
  cases h with
  | nothing => simp at hl
  | move hi hc =>
    obtain rfl : c = t.conn := by simpa using hl
    exact ⟨rfl, hc, hi⟩
  | frame => simp at hl
  | moveAndFrame hi hs hc =>
    obtain rfl : c = t.conn := by simpa using hl
    exact ⟨rfl, fun h => hs (h ▸ hc), .inr (.inr (.inr (.inr hi)))⟩
  | repaint => simp at hl

theorem MayEmit.frameReady {es : List Label} {bs : List Byte} (h : MayEmit i s t es) (hl : Label.frameReady bs ∈ es) :
    bs = snapshot t.fb ∧ t.conn = .connected ∧ (i = .tickFast ∨ i = .tickSlow) := by
  cases h with
  | nothing => simp at hl
  | move => simp at hl
  | frame hi hc => exact ⟨by simpa using hl, hc, .inl hi⟩
  | moveAndFrame hi hs hc => exact ⟨by simpa using hl, hc, .inr hi⟩
  | repaint => simp at hl

theorem MayEmit.repaint_mem {es : List Label} (h : MayEmit i s t es) (hl : Label.repaint ∈ es) :
    i = .tickFast ∧ s.conn ≠ .connected ∧ t.toBlock = s.toBlock := by
  cases h with
  | nothing => simp at hl
  | move => simp at hl
  | frame => simp at hl
  | moveAndFrame => simp at hl
  | repaint hi hs hb => exact ⟨hi, hs, hb⟩

/-- Settles O54: the events of what an operation adds are one of the sequences listed for it (`exec_emits`), and each event
of such a sequence has its source and its value. -/
theorem eventsComeFromTheListedOperations : Obligations.EventsComeFromTheListedOperations := by
  intro i s t h
  obtain ⟨es, ⟨run, htrace, hes⟩, hmay⟩ := exec_emits h
  have listed {l : Label} (hl : l ∈ run) (he : l.isEvent = true) : l ∈ es := hes ▸ List.mem_filter.2 ⟨hl, he⟩
  exact ⟨run, htrace, fun _ hl => hmay.connChanged (listed hl rfl), fun _ hl => hmay.frameReady (listed hl rfl),
    fun hl => hmay.repaint_mem (listed hl rfl)⟩

end Sys2Proof.Machine
end

section
/-! PROOFS. The sound states (10_state.md R22, R25). An operation outside link control leaves a frame (`TransferFrame`) that holds
in every state; O51 and half of O46 are read off it. The operations of link control, the ticks and RESET keep the
state sound one by one. -/

namespace Sys2Proof.Machine

variable {s t : State}

/-! The machine after reset. -/

/-- Settles O42. -/
theorem stateAfterResetHasTheResetValues : Obligations.StateAfterResetHasTheResetValues :=
  ⟨rfl, rfl, fun _ => rfl, rfl, rfl⟩

/-- Settles O57: nothing is presented at reset, so nothing from another source than the host. -/
theorem resetIsBetweenCommands : Obligations.ResetIsBetweenCommands :=
  ⟨fun _ hp => absurd hp List.not_mem_nil, rfl, rfl⟩

/-! Sound states out of Connected. -/

theorem State.Sound.handle_eq_none (hs : s.Sound) (hc : s.conn ≠ .connected) : s.handle = none :=
  Option.not_isSome_iff_eq_none.1 fun hh => hc (hs.handle_iff.1 hh)

theorem State.Sound.phase_eq_idle (hs : s.Sound) (hc : s.conn ≠ .connected) : s.phase = .idle :=
  by_contra fun hp => hc (hs.pulling hp)

theorem State.Sound.inService_eq_true (hs : s.Sound) (hc : s.conn ≠ .disconnected) : s.inService = true :=
  Bool.eq_true_of_not_eq_false fun hv => hc (hs.shut hv)

/-- Without a handle, out of Connected and between pulls, only K, FB and the service flag are left to check. -/
theorem sound_of_detached (hh : s.handle = none) (hc : s.conn ≠ .connected) (hp : s.phase = .idle) (hk : s.k = 0)
    (hf : s.fb.wf) (hv : s.inService = false → s.conn = .disconnected) : s.Sound where
  handle_iff := by simp [hh, hc]
  idle_k _ := hk
  pulling hn := absurd hp hn
  fb_wf := hf
  shut := hv

/-- Settles O45. -/
theorem resetIsSound : Obligations.ResetIsSound :=
  sound_of_detached rfl (by decide) rfl rfl zeroedFb_wf fun _ => rfl

/-! The frame of the operations outside link control. -/

/-- What an operation outside link control leaves as it was: CONN, HANDLE, the service flag, and, where they hold, the form
of FB, K 0 while Idle, and that a pull runs in Connected. -/
structure State.TransferFrame (s t : State) : Prop where
  conn : t.conn = s.conn
  handle : t.handle = s.handle
  inService : t.inService = s.inService
  fb_wf : s.fb.wf → t.fb.wf
  idle_k : (s.phase = .idle → s.k = 0) → t.phase = .idle → t.k = 0
  pulling : t.phase ≠ .idle → s.phase ≠ .idle ∨ s.conn = .connected

theorem State.TransferFrame.trans {u : State} (h₁ : s.TransferFrame t) (h₂ : t.TransferFrame u) : s.TransferFrame u where
  conn := h₂.conn.trans h₁.conn
  handle := h₂.handle.trans h₁.handle
  inService := h₂.inService.trans h₁.inService
  fb_wf := h₂.fb_wf ∘ h₁.fb_wf
  idle_k := h₂.idle_k ∘ h₁.idle_k
  pulling hp := (h₂.pulling hp).elim h₁.pulling fun hc => .inr (h₁.conn ▸ hc)

theorem State.TransferFrame.sound (h : s.TransferFrame t) (hs : s.Sound) : t.Sound where
  handle_iff := by rw [h.handle, h.conn]; exact hs.handle_iff
  idle_k := h.idle_k hs.idle_k
  pulling hp := h.conn.trans ((h.pulling hp).elim hs.pulling id)
  fb_wf := h.fb_wf hs.fb_wf
  shut hv := h.conn.trans (hs.shut (h.inService ▸ hv))

/-- An update of the ports alone. -/
theorem transferFrame_of_toBlock_eq (hb : t.toBlock = s.toBlock) (hv : t.inService = s.inService) : s.TransferFrame t where
  conn := by rw [hb]
  handle := by rw [hb]
  inService := hv
  fb_wf := by rw [hb]; exact id
  idle_k := by rw [hb]; exact id
  pulling := by rw [hb]; exact .inl

theorem setFb_transferFrame {m : Memory} (hm : s.fb.wf → m.wf) : s.TransferFrame (s.setFb m) :=
  ⟨rfl, rfl, rfl, hm, id, .inl⟩

theorem setPc_transferFrame (p : Phase) (k : Fin Config.chunks) (hk : p = .idle → k = 0)
    (hp : p ≠ .idle → s.phase ≠ .idle ∨ s.conn = .connected) : s.TransferFrame (s.setPc p k) :=
  ⟨rfl, rfl, rfl, id, fun _ => hk, hp⟩

theorem setResult_transferFrame (v : Value) : s.TransferFrame (s.setResult v) := transferFrame_of_toBlock_eq rfl rfl

theorem raise_transferFrame (e : ErrorKind) : s.TransferFrame (s.raise e) :=
  (setPc_transferFrame .idle 0 (fun _ => rfl) (absurd rfl)).trans (setResult_transferFrame _)

theorem afterWrite_transferFrame (hp : s.phase ≠ .idle) : s.TransferFrame s.afterWrite := by
  unfold State.afterWrite
  split
  · exact (setPc_transferFrame .readPhase 0 nofun fun _ => .inl hp).trans (setResult_transferFrame _)
  · exact (setPc_transferFrame .writePhase _ nofun fun _ => .inl hp).trans (setResult_transferFrame _)

theorem sendRequest_transferFrame (h : Handle) (q : Packet) (hp : s.phase ≠ .idle) :
    s.TransferFrame (s.sendRequest h q) := by
  have written : s.TransferFrame (s.tWrite h q) := transferFrame_of_toBlock_eq rfl rfl
  cases ha : s.writeAnswer with
  | ok => rw [sendRequest_ok ha]; exact written.trans (afterWrite_transferFrame hp)
  | error => rw [sendRequest_error ha]; exact written.trans (raise_transferFrame _)

theorem acceptResponse_transferFrame (r : Packet) (hp : s.phase ≠ .idle) : s.TransferFrame (s.acceptResponse r) := by
  unfold State.acceptResponse
  split
  · have reversed : s.TransferFrame (s.setFb (rowReverse (chunkCopy s.fb s.k r))) :=
      setFb_transferFrame fun hf => rowReverse_wf (chunkCopy_wf hf s.k r)
    exact (reversed.trans (setPc_transferFrame .idle 0 (fun _ => rfl) (absurd rfl))).trans (setResult_transferFrame _)
  · have copied : s.TransferFrame (s.setFb (chunkCopy s.fb s.k r)) := setFb_transferFrame fun hf => chunkCopy_wf hf s.k r
    exact (copied.trans (setPc_transferFrame .readPhase _ nofun fun _ => .inl hp)).trans (setResult_transferFrame _)

theorem receiveResponse_transferFrame (h : Handle) (hp : s.phase ≠ .idle) : s.TransferFrame (s.receiveResponse h) := by
  have answered : s.TransferFrame (s.tRead h) := transferFrame_of_toBlock_eq rfl rfl
  cases ha : s.readAnswer with
  | response r => rw [receiveResponse_response ha]; exact answered.trans (acceptResponse_transferFrame r hp)
  | errorOrTimeout => rw [receiveResponse_error ha]; exact answered.trans (raise_transferFrame _)

/-- A whole pull keeps the frame and ends between pulls (41_frame_transfer.md R140, R141). -/
theorem pull_transferFrame (s : State) (h : Handle) : s.TransferFrame (s.pull h).2 ∧ (s.pull h).2.phase = .idle := by
  obtain ⟨m, ws, rs, n, run, hp, hm, -⟩ := pull_frame h s
  rw [hp]
  exact ⟨⟨rfl, rfl, rfl, hm, fun _ _ => rfl, (absurd rfl ·)⟩, rfl⟩

/-! The operations outside link control. -/

theorem execReqReadFb_transferFrame {q : Packet} (h : execReqReadFb q s = .next t) : s.TransferFrame t := by
  unfold execReqReadFb at h
  split at h
  · rename_i hd hph
    have hp := (phaseHandle_eq_some_iff.1 hph).1
    split at h
    · cases h; exact sendRequest_transferFrame hd q (by simp [hp])
    · cases h
  · cases h

theorem execRspReadFb_transferFrame {r : Packet} (h : execRspReadFb r s = .next t) : s.TransferFrame t := by
  unfold execRspReadFb at h
  split at h
  · rename_i hd hph
    have hp := (phaseHandle_eq_some_iff.1 hph).1
    have answered : s.TransferFrame (s.tReadOf hd r) := transferFrame_of_toBlock_eq rfl rfl
    cases h
    exact answered.trans (acceptResponse_transferFrame r (by simp [hp]))
  · cases h

theorem execPullFrame_transferFrame (h : execPullFrame s = .next t) : s.TransferFrame t := by
  unfold execPullFrame at h
  split at h
  · cases h; exact (pull_transferFrame s _).1.trans (setResult_transferFrame _)
  · cases h

theorem execPullStart_transferFrame (h : execPullStart s = .next t) : s.TransferFrame t := by
  unfold execPullStart at h
  split at h
  · rename_i hd hph
    have hc := (pullHandle_eq_some_iff.1 hph).1
    cases h
    exact (setPc_transferFrame .writePhase 0 nofun fun _ => .inr hc).trans (setResult_transferFrame _)
  · cases h

theorem execWriteStep_transferFrame (h : execWriteStep s = .next t) : s.TransferFrame t := by
  unfold execWriteStep at h
  split at h
  · rename_i hd hph
    have hp := (phaseHandle_eq_some_iff.1 hph).1
    cases h
    exact sendRequest_transferFrame hd _ (by simp [hp])
  · cases h

theorem execReadStep_transferFrame (h : execReadStep s = .next t) : s.TransferFrame t := by
  unfold execReadStep at h
  split at h
  · rename_i hd hph
    have hp := (phaseHandle_eq_some_iff.1 hph).1
    cases h
    exact receiveResponse_transferFrame hd (by simp [hp])
  · cases h

/-- Link control, the ticks and RESET: the operations that may write CONN and HANDLE (10_state.md R21, R22). -/
def ControlsLink (i : Instr) : Prop :=
  i = .connect ∨ i = .openAttempt ∨ i = .ioFailure ∨ i = .reconnectAttempt ∨ i = .shutdown ∨ i = .tickFast ∨
    i = .tickSlow ∨ i = .reset

/-- Every other operation keeps the frame. -/
theorem exec_transferFrame {i : Instr} (h : exec i s = .next t) (hi : ¬ControlsLink i) : s.TransferFrame t := by
  cases i with
  | reqReadFb q => exact execReqReadFb_transferFrame h
  | rspReadFb r => exact execRspReadFb_transferFrame h
  | checksum16 q => cases h; exact setResult_transferFrame _
  | buildRequest o => cases h; exact setResult_transferFrame _
  | checkRequest q => cases h; exact setResult_transferFrame _
  | extractPayload r => cases h; exact setResult_transferFrame _
  | pullFrame => exact execPullFrame_transferFrame h
  | pullStart => exact execPullStart_transferFrame h
  | writeStep => exact execWriteStep_transferFrame h
  | readStep => exact execReadStep_transferFrame h
  | rowReverse => cases h; exact (setFb_transferFrame rowReverse_wf).trans (setResult_transferFrame _)
  | fbZero => cases h; exact (setFb_transferFrame fun _ => zeroedFb_wf).trans (setResult_transferFrame _)
  | fbSnapshot => cases h; exact setResult_transferFrame _
  | selectDevice ds => cases h; exact setResult_transferFrame _
  | connect | openAttempt | ioFailure | reconnectAttempt | shutdown | tickFast | tickSlow | reset =>
    simp [ControlsLink] at hi

/-- Settles O51: CONN and HANDLE stand in the frame of every operation outside link control. -/
theorem onlyLinkControlWritesConnAndHandle : Obligations.OnlyLinkControlWritesConnAndHandle := by
  intro i s t h h₁ h₂ h₃ h₄ h₅ h₆ h₇ h₈
  have frame : s.TransferFrame t := exec_transferFrame h (by simp [ControlsLink, *])
  exact ⟨frame.conn, frame.handle⟩

/-! What the shared operations of link control keep sound. -/

theorem State.Sound.of_toBlock_eq (hs : s.Sound) (hb : t.toBlock = s.toBlock) (hv : t.inService = s.inService) : t.Sound :=
  (transferFrame_of_toBlock_eq hb hv).sound hs

theorem State.Sound.log (hs : s.Sound) (l : Label) : (s.log l).Sound := hs.of_toBlock_eq rfl rfl

theorem State.Sound.setResult (hs : s.Sound) (v : Value) : (s.setResult v).Sound := hs.of_toBlock_eq rfl rfl

theorem State.Sound.setPort (hs : s.Sound) (ps : List Presented) : (s.setPort ps).Sound := hs.of_toBlock_eq rfl rfl

/-- A move from Disconnected to Reconnecting, or back, in service. -/
theorem State.Sound.setConn {c : Conn} (hs : s.Sound) (hc : s.conn ≠ .connected) (hv : s.inService = true)
    (hn : c ≠ .connected) : (s.setConn c).Sound :=
  have hp := hs.phase_eq_idle hc
  sound_of_detached (hs.handle_eq_none hc) hn hp (hs.idle_k hp) hs.fb_wf fun hf => by simp [hv] at hf

theorem State.Sound.attach (hs : s.Sound) (hv : s.inService = true) (h : Handle) : (s.attach h).Sound where
  handle_iff := iff_of_true rfl rfl
  idle_k := hs.idle_k
  pulling _ := rfl
  fb_wf := zeroedFb_wf
  shut hf := absurd (hv.symm.trans hf) (by decide)

theorem State.Sound.ioFailure (hs : s.Sound) (hp : s.phase = .idle) (hv : s.inService = true) (h : Handle) :
    (s.ioFailure h).Sound := by
  rw [ioFailure_eq]
  exact sound_of_detached rfl nofun hp (hs.idle_k hp) zeroedFb_wf fun hf => absurd (hv.symm.trans hf) (by decide)

theorem closeHeld_of_handle_eq_none (hh : s.handle = none) : s.closeHeld = s := by
  simp [State.closeHeld, hh]

/-- An open attempt made out of Connected, in service: a success is sound, and a failure stays out of Connected. -/
theorem attempt_sound (hs : s.Sound) (hc : s.conn ≠ .connected) (hv : s.inService = true) :
    (∃ t, s.attempt = (.success, t) ∧ t.Sound) ∨
    ∃ e t, s.attempt = (.failure e, t) ∧ t.Sound ∧ t.conn ≠ .connected ∧ t.inService = true := by
  have searched : s.tEnumerate.Sound := hs.of_toBlock_eq rfl rfl
  have opened (p : Path) : (s.tEnumerate.tOpen p).Sound := searched.of_toBlock_eq rfl rfl
  have outcomes := attempt_cases s
  rw [closeHeld_of_handle_eq_none (hs.handle_eq_none hc)] at outcomes
  obtain ⟨-, ha⟩ | ⟨p, -, ⟨-, ha⟩ | ⟨h, -, ha⟩⟩ := outcomes
  · exact .inr ⟨_, _, ha, searched, hc, hv⟩
  · exact .inr ⟨_, _, ha, opened p, hc, hv⟩
  · exact .inl ⟨_, ha, (opened p).attach hv h⟩

theorem firstConnect_sound (hs : s.Sound) (hc : s.conn ≠ .connected) (hv : s.inService = true) : s.firstConnect.Sound := by
  unfold State.firstConnect
  obtain ⟨t, ha, ht⟩ | ⟨e, t, ha, ht, htc, htv⟩ := attempt_sound hs hc hv <;> rw [ha]
  · exact ht.log _
  · exact (ht.setConn (c := .reconnecting) htc htv nofun).log _

theorem reconnect_sound (hs : s.Sound) (hc : s.conn = .reconnecting) : s.reconnect.2.Sound := by
  unfold State.reconnect
  obtain ⟨t, ha, ht⟩ | ⟨e, t, ha, ht, -, -⟩ :=
    attempt_sound hs (by simp [hc]) (hs.inService_eq_true (by simp [hc])) <;> rw [ha]
  · exact ht.log _
  · exact ht

theorem reconnectAndReport_sound (hs : s.Sound) (hc : s.conn = .reconnecting) : s.reconnectAndReport.Sound := by
  have ht := reconnect_sound hs hc
  unfold State.reconnectAndReport
  generalize s.reconnect = p at ht ⊢
  obtain ⟨_ | e, t⟩ := p
  · exact ht.log _
  · exact ht

/-- A pull ends in Idle, so that failure entry finds K 0 (44_scheduler.md R190). -/
theorem pullAndReport_sound (hs : s.Sound) (hv : s.inService = true) (h : Handle) : (s.pullAndReport h).Sound := by
  obtain ⟨frame, hp⟩ := pull_transferFrame s h
  have ht := frame.sound hs
  have htv := frame.inService.trans hv
  unfold State.pullAndReport
  generalize s.pull h = p at hp ht htv ⊢
  obtain ⟨r, t⟩ := p
  cases r with
  | ok => exact ht.log _
  | errWrite => exact ht.ioFailure hp htv h
  | errRead => exact ht.ioFailure hp htv h

/-! Link control, the ticks and RESET. -/

theorem execConnect_sound (hs : s.Sound) (h : execConnect s = .next t) : t.Sound := by
  unfold execConnect at h
  split at h
  · cases h
  · rename_i hta
    obtain ⟨hv, -⟩ := turnedAway_eq_none_iff.1 hta
    split at h
    · rename_i hc
      cases h
      exact (firstConnect_sound (hs.log _) (by simp [hc]) hv).setResult _
    · cases h
    · cases h

theorem execOpenAttempt_sound (hs : s.Sound) (h : execOpenAttempt s = .next t) : t.Sound := by
  unfold execOpenAttempt at h
  split at h
  · cases h
  · rename_i hta
    obtain ⟨hv, -⟩ := turnedAway_eq_none_iff.1 hta
    have attempted (hc : s.conn ≠ .connected) : s.attempt.2.Sound := by
      obtain ⟨u, ha, hu⟩ | ⟨e, u, ha, hu, -, -⟩ := attempt_sound hs hc hv <;> rwa [ha]
    split at h
    · cases h
    · rename_i hc
      cases h; exact (attempted (by simp [hc])).setResult _
    · rename_i hc
      cases h; exact (attempted (by simp [hc])).setResult _

theorem execIoFailure_sound (hs : s.Sound) (h : execIoFailure s = .next t) : t.Sound := by
  unfold execIoFailure at h
  split at h
  · rename_i hd hf
    obtain ⟨hc, hp, -⟩ := failingHandle_eq_some_iff.1 hf
    cases h
    exact (hs.ioFailure hp (hs.inService_eq_true (by simp [hc])) hd).setResult _
  · cases h

theorem execReconnectAttempt_sound (hs : s.Sound) (h : execReconnectAttempt s = .next t) : t.Sound := by
  unfold execReconnectAttempt at h
  split at h
  · rename_i hpre
    obtain ⟨hc, -⟩ := hpre
    cases h
    exact (reconnect_sound hs hc).setResult _
  · cases h

theorem execShutdown_sound (hs : s.Sound) (h : execShutdown s = .next t) : t.Sound := by
  unfold execShutdown at h
  split at h
  · cases h
  · rename_i hta
    obtain ⟨-, hp⟩ := turnedAway_eq_none_iff.1 hta
    cases h
    rw [closeHeld_eq]
    exact sound_of_detached rfl nofun hp (hs.idle_k hp) hs.fb_wf fun _ => rfl

theorem execTickFast_sound (hs : s.Sound) (h : execTickFast s = .next t) : t.Sound := by
  have accepted := hs.log (.command .tickFast)
  unfold execTickFast at h
  split at h
  · cases h
  · rename_i hta
    obtain ⟨hv, -⟩ := turnedAway_eq_none_iff.1 hta
    split at h
    · split at h
      · cases h; exact (pullAndReport_sound accepted hv _).setResult _
      · cases h
    · cases h; exact (accepted.log _).setResult _
    · cases h; exact (accepted.log _).setResult _

theorem execTickSlow_sound (hs : s.Sound) (h : execTickSlow s = .next t) : t.Sound := by
  have accepted := hs.log (.command .tickSlow)
  unfold execTickSlow at h
  split at h
  · cases h
  · split at h
    · rename_i hc
      cases h; exact (reconnectAndReport_sound accepted hc).setResult _
    · cases h; exact accepted.setResult _
    · cases h; exact accepted.setResult _

/-- RESET makes any state sound. -/
theorem execReset_sound (h : execReset s = .next t) : t.Sound := by
  cases h
  exact sound_of_detached rfl nofun rfl rfl zeroedFb_wf fun _ => rfl

/-! Every operation and every step. -/

theorem exec_sound {i : Instr} (hs : s.Sound) (h : exec i s = .next t) : t.Sound := by
  by_cases hi : ControlsLink i
  · obtain rfl | rfl | rfl | rfl | rfl | rfl | rfl | rfl := hi
    · exact execConnect_sound hs h
    · exact execOpenAttempt_sound hs h
    · exact execIoFailure_sound hs h
    · exact execReconnectAttempt_sound hs h
    · exact execShutdown_sound hs h
    · exact execTickFast_sound hs h
    · exact execTickSlow_sound hs h
    · exact execReset_sound h
  · exact (exec_transferFrame h hi).sound hs

theorem step_sound (hs : s.Sound) (h : step s = .next t) : t.Sound := by
  obtain ⟨p, rest, i, -, -, -, -, he⟩ | ⟨-, -, he⟩ | ⟨-, -, he⟩ | ⟨-, -, rfl⟩ := step_cases h
  · exact exec_sound (hs.setPort rest) he
  · exact exec_sound hs he
  · exact exec_sound hs he
  · exact hs

/-- Settles O46: an operation outside link control keeps its frame, and each of the others is sound by its own lemma; a step
runs one operation or stays. -/
theorem stepKeepsSound : Obligations.StepKeepsSound :=
  ⟨fun _ _ _ hs h => exec_sound hs h, fun _ _ hs h => step_sound hs h⟩

end Sys2Proof.Machine
end

section
/-! PROOFS. The pixel view of FB (20_memory.md R54): where a pixel stands, and each colour field as a division and a remainder of
the pixel's value. -/

namespace Sys2Proof.Machine

/-- A pixel is two bytes wide, so 160 pixels make a row of 320 bytes. -/
theorem pixelAt_eq (m : Memory) (r c : Nat) :
    pixelAt m r c = le16 (readByte m (320 * r + 2 * c)) (readByte m (320 * r + 2 * c + 1)) := by
  have haddr : 2 * (160 * r + c) = 320 * r + 2 * c := by omega
  rw [pixelAt, pixel, haddr]

/-- Bits 15:11 are the top five of sixteen, so the quotient needs no remainder. -/
theorem red_toNat (v : U16) : (red v).toNat = v.toNat / 2048 := by
  have hv := v.isLt
  rw [red, BitVec.extractLsb'_toNat, Nat.shiftRight_eq_div_pow]
  omega

theorem green_toNat (v : U16) : (green v).toNat = v.toNat / 32 % 64 := by
  rw [green, BitVec.extractLsb'_toNat, Nat.shiftRight_eq_div_pow]

theorem blue_toNat (v : U16) : (blue v).toNat = v.toNat % 32 := by
  rw [blue, BitVec.extractLsb'_toNat, Nat.shiftRight_zero]

/-- Settles O17: the address of a pixel, then the three colour fields. -/
theorem pixelViewReadsLittleEndian : Obligations.PixelViewReadsLittleEndian :=
  ⟨pixelAt_eq, fun v => ⟨red_toNat v, green_toNat v, blue_toNat v⟩⟩

end Sys2Proof.Machine
end

section
/-! PROOFS. Requests (30_encoding.md R81, R87): the fields of a laid out request are read back, the checksum does not
see its own field, and a packet that passes the recogniser is a laid out request with the right checksum. -/

namespace Sys2Proof

section
variable {p : Params} {c : U16} {offset : U32} {pkt : Packet}

/-! Byte order, from bytes to numbers and back. -/

theorem byteOf_toNat {w : Nat} (v : BitVec w) (i : Nat) : (byteOf v i).toNat = v.toNat / 2 ^ (8 * i) % 2 ^ 8 := by
  rw [byteOf, BitVec.extractLsb'_toNat, Nat.shiftRight_eq_div_pow]

/-- `LE16` is the inverse of `enc16`. -/
theorem enc16_le16 (b0 b1 : Byte) : enc16 (le16 b0 b1) = [b0, b1] := by
  have h0 := b0.isLt
  have h1 := b1.isLt
  simp only [enc16, List.cons.injEq, and_true, ← BitVec.toNat_inj, byteOf_toNat, le16_toNat]
  omega

/-- `LE32` is the inverse of `enc32`. -/
theorem enc32_le32 (b0 b1 b2 b3 : Byte) : enc32 (le32 b0 b1 b2 b3) = [b0, b1, b2, b3] := by
  have h0 := b0.isLt
  have h1 := b1.isLt
  have h2 := b2.isLt
  have h3 := b3.isLt
  simp only [enc32, List.cons.injEq, and_true, ← BitVec.toNat_inj, byteOf_toNat, le32_toNat]
  omega

/-! The fields of a laid out request. -/

theorem storedChecksum_reqLayout (p : Params) (c : U16) (offset : U32) : storedChecksum (reqLayout p c offset) = c := by
  simp only [storedChecksum, Packet.byte, reqLayout, reqBytes_eq, List.getD_cons_succ, List.getD_cons_zero, le16_byteOf]

theorem requestOffset_reqLayout (p : Params) (c : U16) (offset : U32) : requestOffset (reqLayout p c offset) = offset := by
  simp only [requestOffset, Packet.byte, reqLayout, reqBytes_eq, List.getD_cons_succ, List.getD_cons_zero, le32_byteOf]

/-- The sum leaves word 1 out, which is the checksum field (40_codec.md R110). -/
theorem checksum16_reqLayout (p : Params) (c : U16) (offset : U32) :
    checksum16 (reqLayout p c offset) = checksum16 (reqLayout p 0 offset) := by
  simp only [checksum16, reqLayout, reqBytes_eq, sumWords, Nat.zero_add, if_true]

/-- A laid out request checks itself exactly when it is the built one (40_codec.md R111, R113). -/
theorem checkRequest_reqLayout_iff :
    checkRequest (reqLayout p c offset) = true ↔ reqLayout p c offset = buildRequest p offset := by
  rw [checkRequest, beq_iff_eq, storedChecksum_reqLayout, checksum16_reqLayout, buildRequest]
  refine ⟨fun hc => by rw [← hc], fun he => ?_⟩
  rw [← storedChecksum_reqLayout p c offset, he, storedChecksum_reqLayout]

/-! The recogniser (30_encoding.md R87). -/

theorem exists_enc16_eq {bs : List Byte} (h : bs.length = 2) : ∃ c, enc16 c = bs := by
  obtain ⟨b0, b1, rfl⟩ := List.length_eq_two.1 h
  exact ⟨_, enc16_le16 b0 b1⟩

theorem exists_enc32_eq {bs : List Byte} (h : bs.length = 4) : ∃ offset, enc32 offset = bs := by
  obtain ⟨b0, b1, b2, b3, rfl⟩ := List.length_eq_four.1 h
  exact ⟨_, enc32_le32 b0 b1 b2 b3⟩

theorem all_zero_iff_eq_padding {bs : List Byte} (h : bs.length = 1012) : bs.all (· == 0#8) = true ↔ bs = padding := by
  rw [padding, List.eq_replicate_iff, List.all_eq_true]
  simp [h]

theorem Packet.eq_of_bytes_eq {q r : Packet} (h : q.bytes = r.bytes) : q = r := by
  cases q
  cases r
  cases h
  rfl

/-- A packet is its five fields in a row (30_encoding.md R81). -/
theorem Packet.bytes_eq_fields (pkt : Packet) :
    pkt.bytes = pkt.bytes.take 2 ++ (pkt.bytes.drop 2).take 2 ++ (pkt.bytes.drop 4).take 4 ++ (pkt.bytes.drop 8).take 4
      ++ pkt.bytes.drop 12 := by
  simp only [← List.take_add, List.take_append_drop]

theorem isRequest_reqLayout (p : Params) (c : U16) (offset : U32) :
    isRequest p (reqLayout p c offset) = checkRequest (reqLayout p c offset) := by
  have hpad : (reqBytes p c offset).drop 12 = padding := List.drop_left' (by simp [enc16, enc32])
  have hop : (reqBytes p c offset).take 2 = p.opcodeBytes.toList := by simp [reqBytes]
  have hsub : ((reqBytes p c offset).drop 4).take 4 = p.subcmdBytes.toList := by
    rw [reqBytes, List.append_assoc, List.append_assoc, List.drop_left' (by simp [enc16]), List.take_left' (by simp)]
  have hzero : padding.all (· == 0#8) = true := (all_zero_iff_eq_padding List.length_replicate).2 rfl
  simp only [isRequest, reqLayout, hpad, hop, hsub, hzero, beq_self_eq_true, Bool.true_and]

/-- What passes the recogniser is laid out as a request: the checksum and the offset field can hold anything. -/
theorem exists_reqLayout_of_isRequest (h : isRequest p pkt = true) : ∃ c offset, pkt = reqLayout p c offset := by
  have hlen := pkt.length_bytes
  simp only [isRequest, Bool.and_eq_true, beq_iff_eq] at h
  obtain ⟨⟨⟨hpad, hop⟩, hsub⟩, -⟩ := h
  rw [all_zero_iff_eq_padding (by simp [hlen])] at hpad
  obtain ⟨c, hc⟩ := exists_enc16_eq (bs := (pkt.bytes.drop 2).take 2) (by simp [hlen])
  obtain ⟨offset, ho⟩ := exists_enc32_eq (bs := (pkt.bytes.drop 8).take 4) (by simp [hlen])
  refine ⟨c, offset, Packet.eq_of_bytes_eq ?_⟩
  rw [pkt.bytes_eq_fields, hop, ← hc, hsub, ← ho, hpad]
  rfl

end

/-- Settles O12: a packet is laid out as a request and checks itself, or equally, it is built. -/
theorem recognisedRequestsAreTheBuiltOnes : Obligations.RecognisedRequestsAreTheBuiltOnes := by
  refine ⟨fun p pkt => ⟨fun h => ?_, ?_⟩, fun p offset => requestOffset_reqLayout p _ offset⟩
  · obtain ⟨c, offset, rfl⟩ := exists_reqLayout_of_isRequest h
    rw [isRequest_reqLayout] at h
    exact ⟨offset, checkRequest_reqLayout_iff.1 h⟩
  · rintro ⟨offset, rfl⟩
    exact (isRequest_reqLayout ..).trans (checkRequest_reqLayout_iff.2 rfl)

end Sys2Proof
end

section
/-! PROOFS. The decoder against the encoder (30_encoding.md R90, R92; log 5). Each reader gets back the operand that was
written and the bytes after it; then, by the operation, so does the decoder. What the decoder answers is well formed, because
only the reader of REQ.READ_FB has something to check. -/

namespace Sys2Proof

/-! Operands: what was written is read back, whatever follows it. -/

theorem decodePacket_append (pkt : Packet) (rest : List Byte) : decodePacket (pkt.bytes ++ rest) = .ok (pkt, rest) := by
  have htake : (pkt.bytes ++ rest).take Config.pktLen = pkt.bytes := List.take_left' pkt.length_bytes
  have hdrop : (pkt.bytes ++ rest).drop Config.pktLen = rest := List.drop_left' pkt.length_bytes
  simp only [decodePacket, htake, hdrop, pkt.length_bytes, dif_pos]

theorem decodeU32_enc32 (v : U32) (rest : List Byte) : decodeU32 (enc32 v ++ rest) = .ok (v, rest) := by
  simp only [enc32, List.cons_append, List.nil_append, decodeU32, le32_byteOf]

/-- A marker 0 ends a number. -/
theorem decodeNat_zero_cons (rest : List Byte) : decodeNat (0#8 :: rest) = .ok (0, rest) := by
  cases rest <;> rfl

/-- A marker 1 is followed by the least significant byte. -/
theorem decodeNat_one_cons {b : Byte} {rest rest' : List Byte} {n : Nat} (h : decodeNat rest = .ok (n, rest')) :
    decodeNat (1#8 :: b :: rest) = .ok (b.toNat + 256 * n, rest') := by
  simp [decodeNat, h]

/-- Any number of bytes that is enough for `n` will do. -/
theorem decodeNat_encodeNatFuel {fuel n : Nat} (hn : n ≤ fuel) (rest : List Byte) :
    decodeNat (encodeNatFuel fuel n ++ rest) = .ok (n, rest) := by
  induction fuel generalizing n with
  | zero =>
    obtain rfl : n = 0 := by omega
    exact decodeNat_zero_cons rest
  | succ fuel ih =>
    rw [encodeNatFuel]
    split
    next h0 => subst h0; exact decodeNat_zero_cons rest
    next h0 =>
      have hdigits : (BitVec.ofNat 8 n).toNat + 256 * (n / 256) = n := by
        rw [BitVec.toNat_ofNat]
        omega
      rw [List.cons_append, List.cons_append, decodeNat_one_cons (ih (by omega)), hdigits]

theorem decodeNat_encodeNat (n : Nat) (rest : List Byte) : decodeNat (encodeNat n ++ rest) = .ok (n, rest) :=
  decodeNat_encodeNatFuel (Nat.le_refl n) rest

theorem decodeDescriptor_encodeNat (d : Descriptor) (rest : List Byte) :
    decodeDescriptor (encodeNat d.usagePage ++ encodeNat d.path ++ rest) = .ok (d, rest) := by
  simp only [decodeDescriptor, List.append_assoc, decodeNat_encodeNat]

/-- A list of descriptors needs one unit of fuel for each and one for the end. -/
theorem decodeDescriptors_encodeDescriptors {fuel : Nat} {ds : List Descriptor} (h : ds.length < fuel) (rest : List Byte) :
    decodeDescriptors fuel (encodeDescriptors ds ++ rest) = .ok (ds, rest) := by
  induction ds generalizing fuel with
  | nil =>
    obtain ⟨fuel, rfl⟩ := Nat.exists_eq_add_one_of_ne_zero (Nat.ne_zero_of_lt h)
    rfl
  | cons d ds ih =>
    obtain ⟨fuel, rfl⟩ := Nat.exists_eq_add_one_of_ne_zero (Nat.ne_zero_of_lt h)
    have hds : ds.length < fuel := by simpa using h
    rw [encodeDescriptors, List.cons_append, List.append_assoc, decodeDescriptors, if_neg (by decide), if_pos rfl,
      decodeDescriptor_encodeNat]
    simp only [ih hds]

/-- Every descriptor takes a byte at least, and so does the end: the fuel of `decodeSelect` is enough. -/
theorem length_lt_encodeDescriptors_length (ds : List Descriptor) : ds.length < (encodeDescriptors ds).length := by
  induction ds with
  | nil => simp [encodeDescriptors]
  | cons d ds ih =>
    simp only [encodeDescriptors, List.length_cons, List.length_append]
    omega

/-! The operation at the front. -/

theorem withPacket_append (mk : Packet → Instr) (pkt : Packet) (rest : List Byte) :
    withPacket mk (pkt.bytes ++ rest) = .ok (mk pkt, rest) := by
  simp only [withPacket, decodePacket_append]

theorem decodeRequest_append {p : Params} {pkt : Packet} (h : isRequest p pkt = true) (rest : List Byte) :
    decodeRequest p (pkt.bytes ++ rest) = .ok (.reqReadFb pkt, rest) := by
  simp only [decodeRequest, decodePacket_append, h, if_true]

theorem decodeBuild_enc32 (v : U32) (rest : List Byte) : decodeBuild (enc32 v ++ rest) = .ok (.buildRequest v, rest) := by
  simp only [decodeBuild, decodeU32_enc32]

theorem decodeSelect_encodeDescriptors (ds : List Descriptor) (rest : List Byte) :
    decodeSelect (encodeDescriptors ds ++ rest) = .ok (.selectDevice ds, rest) := by
  have hfuel : ds.length < (encodeDescriptors ds ++ rest).length := by
    have := length_lt_encodeDescriptors_length ds
    rw [List.length_append]
    omega
  simp only [decodeSelect, decodeDescriptors_encodeDescriptors hfuel]

/-- The decoder reads a well-formed operation at the front of any bytes, and leaves what follows. -/
theorem decodePrefix_encode {p : Params} {i : Instr} (h : i.wellFormedIn p = true) (rest : List Byte) :
    decodePrefix p (encode i ++ rest) = .ok (i, rest) := by
  cases i with
  | reqReadFb pkt => exact decodeRequest_append h rest
  | rspReadFb rsp => exact withPacket_append .rspReadFb rsp rest
  | checksum16 pkt => exact withPacket_append .checksum16 pkt rest
  | buildRequest offset => exact decodeBuild_enc32 offset rest
  | checkRequest pkt => exact withPacket_append .checkRequest pkt rest
  | extractPayload rsp => exact withPacket_append .extractPayload rsp rest
  | selectDevice ds => exact decodeSelect_encodeDescriptors ds rest
  | pullFrame | pullStart | writeStep | readStep | rowReverse | fbZero | fbSnapshot | connect | ioFailure | reconnectAttempt
  | shutdown | tickFast | tickSlow | reset | openAttempt => rfl

/-- Zero bytes after an operation are passed over (log 5). -/
theorem decodeIn_of_decodePrefix {p : Params} {bytes : List Byte} {i : Instr} {n : Nat}
    (h : decodePrefix p bytes = .ok (i, List.replicate n 0#8)) : decodeIn p bytes = .ok i := by
  simp [decodeIn, h]

/-- Settles O2: the operation is read at the front, and the zeros after it are passed over. -/
theorem encodedOperationDecodes : Obligations.EncodedOperationDecodes :=
  fun _ _ h => decodeIn_of_decodePrefix (decodePrefix_encode h _)

/-! What the decoder answers. -/

section
variable {p : Params} {bytes rest rest' : List Byte} {i : Instr}

theorem bare_wellFormedIn {j : Instr} (hj : j.wellFormedIn p = true) (h : bare j rest = .ok (i, rest')) :
    i.wellFormedIn p = true := by
  cases h
  exact hj

theorem withPacket_wellFormedIn {mk : Packet → Instr} (hmk : ∀ pkt, (mk pkt).wellFormedIn p = true)
    (h : withPacket mk rest = .ok (i, rest')) : i.wellFormedIn p = true := by
  unfold withPacket at h
  split at h
  · cases h; exact hmk _
  · cases h

theorem decodeBuild_wellFormedIn (h : decodeBuild rest = .ok (i, rest')) : i.wellFormedIn p = true := by
  unfold decodeBuild at h
  split at h <;> cases h
  rfl

theorem decodeSelect_wellFormedIn (h : decodeSelect rest = .ok (i, rest')) : i.wellFormedIn p = true := by
  unfold decodeSelect at h
  split at h <;> cases h
  rfl

/-- The reader of REQ.READ_FB is the one that checks its operand (30_encoding.md R87). -/
theorem decodeRequest_wellFormedIn (h : decodeRequest p rest = .ok (i, rest')) : i.wellFormedIn p = true := by
  unfold decodeRequest at h
  split at h
  · split at h
    · next hreq => cases h; exact hreq
    · cases h
  · cases h

/-- One reader for each id, in the order of 30_encoding.md R90, then the model's three tags (log 5). -/
theorem decodePrefix_wellFormedIn (h : decodePrefix p bytes = .ok (i, rest')) : i.wellFormedIn p = true := by
  unfold decodePrefix at h
  split at h
  · cases h
  · split at h
    exacts [withPacket_wellFormedIn (fun _ => rfl) h, decodeBuild_wellFormedIn h,
      withPacket_wellFormedIn (fun _ => rfl) h, withPacket_wellFormedIn (fun _ => rfl) h,
      bare_wellFormedIn rfl h, bare_wellFormedIn rfl h, bare_wellFormedIn rfl h, bare_wellFormedIn rfl h,
      bare_wellFormedIn rfl h, bare_wellFormedIn rfl h, bare_wellFormedIn rfl h, decodeSelect_wellFormedIn h,
      bare_wellFormedIn rfl h, bare_wellFormedIn rfl h, bare_wellFormedIn rfl h, bare_wellFormedIn rfl h,
      bare_wellFormedIn rfl h, bare_wellFormedIn rfl h, bare_wellFormedIn rfl h, bare_wellFormedIn rfl h,
      decodeRequest_wellFormedIn h, withPacket_wellFormedIn (fun _ => rfl) h, nomatch h]

/-- An operation that is decoded was read at the front. -/
theorem exists_decodePrefix_of_decodeIn (h : decodeIn p bytes = .ok i) :
    ∃ rest', decodePrefix p bytes = .ok (i, rest') := by
  unfold decodeIn at h
  split at h
  · next j rest' hpre =>
    split at h <;> cases h
    exact ⟨rest', hpre⟩
  · cases h

/-! What the decoder rejects. -/

theorem decodePrefix_unknown {b : Byte} (hb : 0x16 ≤ b.toNat) :
    decodePrefix p (b :: rest) = .error (.unknownOperation b) := by
  obtain ⟨k, hk⟩ := Nat.exists_eq_add_of_le' hb
  rw [decodePrefix, hk]
  rfl

end

/-- Settles O3: every reader answers a well-formed operation. -/
theorem decodedOperationIsWellFormed : Obligations.DecodedOperationIsWellFormed := fun _ _ h =>
  have ⟨_, hpre⟩ := exists_decodePrefix_of_decodeIn h
  decodePrefix_wellFormedIn hpre

/-- Settles O4: an error at the front is the decoder's error. -/
theorem unknownIdsAreRejected : Obligations.UnknownIdsAreRejected := fun b rest hb => by
  rw [decode, decodeIn, decodePrefix_unknown hb]

/-- Settles O1: the five words are encodings, the third with two zeros after it; the two rejections are evaluated. -/
theorem writtenWordsDecode : Obligations.WrittenWordsDecode :=
  ⟨encodedOperationDecodes .writeStep 0 rfl, encodedOperationDecodes .tickFast 0 rfl, encodedOperationDecodes .reset 2 rfl,
    encodedOperationDecodes (.buildRequest 0x000003F4#32) 0 rfl, encodedOperationDecodes (.selectDevice [⟨5, 263⟩]) 0 rfl,
    rfl, rfl⟩

end Sys2Proof
end

section
/-! PROOFS. The two wire packets as the transactions of a pull (30_encoding.md R86, R88, R89; log 20), and what a
response's bytes can influence (R82). In its phase each of the four meanings is one shared operation; the statements compare
those. -/

namespace Sys2Proof.Machine

section
variable {s : State} {h : Handle}

/-! The meanings of a step and of its packet, in their phase. -/

theorem execWriteStep_eq (hp : s.phase = .writePhase) (hh : s.handle = some h) :
    execWriteStep s = .next (s.sendRequest h (chunkRequest Config.params s.k)) := by
  simp only [execWriteStep, phaseHandle_eq_some_iff.2 ⟨hp, hh⟩]

theorem execReqReadFb_due (hp : s.phase = .writePhase) (hh : s.handle = some h) :
    execReqReadFb (chunkRequest Config.params s.k) s = .next (s.sendRequest h (chunkRequest Config.params s.k)) := by
  simp only [execReqReadFb, phaseHandle_eq_some_iff.2 ⟨hp, hh⟩, if_true]

theorem execReqReadFb_not_due {pkt : Packet} (hp : s.phase = .writePhase) (hh : s.handle = some h)
    (hpkt : pkt ≠ chunkRequest Config.params s.k) : execReqReadFb pkt s = .refused .notTheRequestDue := by
  simp only [execReqReadFb, phaseHandle_eq_some_iff.2 ⟨hp, hh⟩, if_neg hpkt]

theorem execReadStep_eq (hp : s.phase = .readPhase) (hh : s.handle = some h) :
    execReadStep s = .next (s.receiveResponse h) := by
  simp only [execReadStep, phaseHandle_eq_some_iff.2 ⟨hp, hh⟩]

theorem execRspReadFb_eq (rsp : Packet) (hp : s.phase = .readPhase) (hh : s.handle = some h) :
    execRspReadFb rsp s = .next ((s.tReadOf h rsp).acceptResponse rsp) := by
  simp only [execRspReadFb, phaseHandle_eq_some_iff.2 ⟨hp, hh⟩]

/-- RSP.READ_FB goes on in the read phase with a handle, and only there. -/
theorem exists_handle_of_execRspReadFb {rsp : Packet} {t : State} (he : execRspReadFb rsp s = .next t) :
    ∃ h, s.phase = .readPhase ∧ s.handle = some h ∧ t = (s.tReadOf h rsp).acceptResponse rsp := by
  unfold execRspReadFb at he
  split at he
  · next h hph =>
    obtain ⟨hp, hh⟩ := phaseHandle_eq_some_iff.1 hph
    cases he
    exact ⟨h, hp, hh, rfl⟩
  · cases he

end

/-! The packets against the steps. -/

/-- A read whose next answer is the packet leaves what the presented packet leaves: the answer given before it stays. -/
theorem receiveResponse_given (s : State) (h : Handle) (rsp : Packet) :
    State.receiveResponse { s with reads := .response rsp :: s.reads } h = (s.tReadOf h rsp).acceptResponse rsp :=
  receiveResponse_response (State.readAnswer_cons rfl)

/-- Settles O21: both are the accepted response after one read. -/
theorem responsePacketActsAsReadStep : Obligations.ResponsePacketActsAsReadStep := fun s h rsp hp hh =>
  have hread := execReadStep_eq (s := { s with reads := .response rsp :: s.reads }) hp hh
  ⟨_, execRspReadFb_eq rsp hp hh, hread.trans (congrArg _ (receiveResponse_given s h rsp))⟩

/-- Settles O22: both send the request for the chunk that is due, and the guard turns away any other packet. -/
theorem requestPacketActsAsWriteStep : Obligations.RequestPacketActsAsWriteStep := fun _ _ hp hh =>
  ⟨⟨_, execReqReadFb_due hp hh, execWriteStep_eq hp hh⟩, fun _ hpkt => execReqReadFb_not_due hp hh hpkt⟩

/-! What a response can influence (30_encoding.md R82, 40_codec.md R115). -/

/-- Two responses that agree on the length field and from the payload on (30_encoding.md R82). -/
def SameNamedBytes (rsp rsp' : Packet) : Prop := ∀ i, i = 4 ∨ i = 5 ∨ 12 ≤ i → rsp.byte i = rsp'.byte i

theorem SameNamedBytes.payloadCount_eq {rsp rsp' : Packet} (h : SameNamedBytes rsp rsp') :
    payloadCount rsp = payloadCount rsp' := by
  simp only [payloadCount, payloadLength, h 4 (by simp), h 5 (by simp)]

theorem SameNamedBytes.extractPayload_eq {rsp rsp' : Packet} (h : SameNamedBytes rsp rsp') :
    extractPayload rsp = extractPayload rsp' := by
  apply List.ext_getElem
  · rw [extractPayload_length, extractPayload_length, h.payloadCount_eq]
  · intro j hj hj'
    rw [extractPayload_length] at hj hj'
    rw [← List.getD_eq_getElem _ 0#8, ← List.getD_eq_getElem _ 0#8, extractPayload_getD hj, extractPayload_getD hj',
      h _ (by omega)]

/-- Of a response nothing but the payload is used. -/
theorem acceptResponse_congr {rsp rsp' : Packet} (h : extractPayload rsp = extractPayload rsp') (s : State) :
    s.acceptResponse rsp = s.acceptResponse rsp' := by
  have hcopy : chunkCopy s.fb s.k rsp = chunkCopy s.fb s.k rsp' := by rw [chunkCopy, chunkCopy, h]
  rw [acceptResponse_eq, acceptResponse_eq, hcopy]

/-- The read before it leaves its line in the run, and no mark on the registers or the result. -/
theorem tReadOf_acceptResponse (s : State) (h : Handle) (r rsp : Packet) :
    ((s.tReadOf h r).acceptResponse rsp).toBlock = (s.acceptResponse rsp).toBlock ∧
      ((s.tReadOf h r).acceptResponse rsp).result = (s.acceptResponse rsp).result := by
  rw [acceptResponse_eq, acceptResponse_eq, State.tReadOf_k]
  split <;> exact ⟨rfl, rfl⟩

/-- Settles O23: both responses are received as in the state before the read, and there their payloads are the same. -/
theorem unnamedResponseBytesHaveNoInfluence : Obligations.UnnamedResponseBytesHaveNoInfluence := by
  intro s t t' rsp rsp' hsame ht ht'
  obtain ⟨h, hp, hh, rfl⟩ := exists_handle_of_execRspReadFb ht
  obtain rfl : _ = t' := Host.Outcome.next.inj ((execRspReadFb_eq rsp' hp hh).symm.trans ht')
  have hpayload : extractPayload rsp = extractPayload rsp' := SameNamedBytes.extractPayload_eq hsame
  obtain ⟨hb, hr⟩ := tReadOf_acceptResponse s h rsp rsp
  obtain ⟨hb', hr'⟩ := tReadOf_acceptResponse s h rsp' rsp'
  rw [hb, hb', hr, hr', acceptResponse_congr hpayload]
  exact ⟨rfl, rfl⟩

end Sys2Proof.Machine
end

section
/-! PROOFS. One step by what is at the port (30_encoding.md R90, 00_scope.md R9, 41_frame_transfer.md R130, R141; log 4,
log 16). -/

namespace Sys2Proof.Machine

section
variable {s : State} {p : Presented} {rest : List Presented} {i : Instr}

/-! What a step does. -/

theorem step_of_not_barred (hport : s.port = p :: rest) (hd : decode p.bytes = .ok i)
    (hb : (s.setPort rest).barred p.source i = none) : step s = exec i (s.setPort rest) := by
  simp only [step, fetch_cons hport, hd, hb]

theorem step_of_barred {r : Refusal} (hport : s.port = p :: rest) (hd : decode p.bytes = .ok i)
    (hb : (s.setPort rest).barred p.source i = some r) : step s = .refused r := by
  simp only [step, fetch_cons hport, hd, hb]

theorem step_of_undecodable {e : DecodeError} (hport : s.port = p :: rest) (hd : decode p.bytes = .error e) :
    step s = .refused (.undecodable e) := by
  simp only [step, fetch_cons hport, hd]

theorem step_of_sequencer_some (hport : s.port = []) (hq : sequencer s = some i) : step s = exec i s := by
  simp only [step, fetch_nil hport, hq]

theorem step_of_sequencer_none (hport : s.port = []) (hq : sequencer s = none) : step s = .next s := by
  simp only [step, fetch_nil hport, hq]

/-! What bars an operation. -/

theorem barred_notACommand (hi : i.kind ≠ .command) : s.barred .host i = some .notACommand := by
  rw [State.barred, if_pos ⟨rfl, hi⟩]

theorem barred_pullInProgress (hp : s.phase ≠ .idle) (hi : i.kind.runsInPull = false) :
    s.barred .bench i = some .pullInProgress := by
  rw [State.barred, if_neg (by simp), if_pos ⟨hp, hi⟩]

/-! Which operations are commands. -/

/-- The five commands of the command port (00_scope.md R9). -/
theorem kind_eq_command_iff :
    i.kind = .command ↔ i = .reset ∨ i = .connect ∨ i = .tickFast ∨ i = .tickSlow ∨ i = .shutdown := by
  cases i <;> simp [Instr.kind]

end

/-- Settles O5: by what is at the port, and what bars it or asks for a step. -/
theorem stepRunsPresentedOperation : Obligations.StepRunsPresentedOperation := by
  refine fun s => ⟨?_, ?_, ?_, ?_, ?_, ?_, ?_⟩
  · intro p rest i hport hd hsrc hrun
    exact step_of_not_barred hport hd (barred_eq_none_iff.2 ⟨hsrc, hrun⟩)
  · intro p rest i hport hd hsrc hi
    exact step_of_barred hport hd (hsrc ▸ barred_notACommand hi)
  · intro p rest i hport hd hsrc hp hi
    exact step_of_barred hport hd (hsrc ▸ barred_pullInProgress hp hi)
  · intro p rest e hport hd
    exact step_of_undecodable hport hd
  · intro hport hp
    exact step_of_sequencer_some hport (by rw [sequencer, hp])
  · intro hport hp
    exact step_of_sequencer_some hport (by rw [sequencer, hp])
  · intro hport hp
    exact step_of_sequencer_none hport (by rw [sequencer, hp])

theorem decode_tableBytes {nbits w : Nat} {i : Instr} (h : decodeTableWord nbits w = some i) :
    decode (tableBytes nbits w) = .ok i := by
  unfold decodeTableWord at h
  split at h
  · next hd => cases h; exact hd
  · cases h

/-- Settles O6: the word is at the front of the port, and taking it leaves the state as it was. -/
theorem placedTableWordRuns : Obligations.PlacedTableWordRuns := fun s nbits w _ h hrun =>
  step_of_not_barred (s := s.withFetchWord nbits w) rfl (decode_tableBytes h) (barred_eq_none_iff.2 ⟨nofun, hrun⟩)

/-- Settles O56: an idle block has no due step of a pull, so its step is the presented operation or nothing, and what the host
presents and nothing bars is a command. -/
theorem onlyTheFiveCommandsComeFromOutside : Obligations.OnlyTheFiveCommandsComeFromOutside := by
  intro s t hhost hidle hstep
  obtain ⟨p, rest, i, hport, hd, hcmd, -, he⟩ | ⟨-, hp, -⟩ | ⟨-, hp, -⟩ | ⟨hport, -, rfl⟩ := step_cases hstep
  · have hsrc : p.source = .host := hhost p (by rw [hport]; exact List.mem_cons_self)
    exact .inr ⟨p, rest, i, hport, hd, he, kind_eq_command_iff.1 (hcmd hsrc)⟩
  · exact absurd (hidle.symm.trans hp) (by simp)
  · exact absurd (hidle.symm.trans hp) (by simp)
  · exact .inl ⟨hport, rfl⟩

end Sys2Proof.Machine
end

section
/-! PROOFS. The codec functions (40_codec.md). The checksum is a sum over the word numbers, so that one changed word changes it;
the built request is read byte by byte (30_encoding.md R81). -/

namespace Sys2Proof

section
variable {pkt pkt' : Packet}

/-! CHECKSUM16 as a sum (40_codec.md R110). -/

/-- What word `i` adds to the checksum: word 1, the checksum field, adds nothing. -/
def checksumTerm (pkt : Packet) (i : Nat) : U16 := if i = 1 then 0 else wordAt pkt i

/-- The model takes the words from the front of the list; the sum takes them by their number. -/
theorem sumWords_eq_sum (n i : Nat) {bs : List Byte} (h : bs.length = 2 * n) :
    sumWords i bs = ∑ k ∈ Finset.range n, if i + k = 1 then 0 else le16 (bs.getD (2 * k) 0) (bs.getD (2 * k + 1) 0) := by
  induction n generalizing i bs with
  | zero =>
    obtain rfl := List.length_eq_zero_iff.1 h
    rfl
  | succ n ih =>
    match bs, h with
    | b0 :: b1 :: rest, h =>
      rw [sumWords, ih (i + 1) (by simpa [Nat.mul_succ] using h), Finset.sum_range_succ', add_comm]
      simp only [Nat.mul_succ, List.getD_cons_succ, List.getD_cons_zero, Nat.mul_zero, Nat.zero_add, Nat.add_zero,
        Nat.add_right_comm i, Nat.add_assoc i]

theorem checksum16_eq_sum (pkt : Packet) : checksum16 pkt = ∑ i ∈ Finset.range 512, checksumTerm pkt i := by
  rw [checksum16, sumWords_eq_sum 512 0 pkt.length_bytes]
  simp only [Nat.zero_add]
  rfl

/-- The loop of the rule: word 1 is passed over, every other word is added. -/
theorem foldl_words_eq_sum (pkt : Packet) (n : Nat) :
    (List.range n).foldl (fun c i => if i = 1 then c else c + le16 (pkt.byte (2 * i)) (pkt.byte (2 * i + 1))) 0 =
      ∑ i ∈ Finset.range n, checksumTerm pkt i := by
  induction n with
  | zero => rfl
  | succ n ih =>
    rw [List.range_succ, List.foldl_append, ih, Finset.sum_range_succ, List.foldl_cons, List.foldl_nil, checksumTerm]
    split
    · rw [add_zero]
    · rfl

/-! One changed byte (40_codec.md R113). -/

/-- A word determines its two bytes. -/
theorem le16_inj {b0 b1 c0 c1 : Byte} (h : le16 b0 b1 = le16 c0 c1) : b0 = c0 ∧ b1 = c1 := by
  have hbytes : [b0, b1] = [c0, c1] := by rw [← enc16_le16, ← enc16_le16, h]
  simpa using hbytes

theorem wordAt_ne_of_byte_ne {j : Nat} (h : pkt'.byte j ≠ pkt.byte j) : wordAt pkt' (j / 2) ≠ wordAt pkt (j / 2) := by
  intro heq
  obtain ⟨hlow, hhigh⟩ := le16_inj heq
  obtain hj | hj : 2 * (j / 2) = j ∨ 2 * (j / 2) + 1 = j := by omega
  · exact h (hj ▸ hlow)
  · exact h (hj ▸ hhigh)

theorem wordAt_congr {i : Nat} (h0 : pkt'.byte (2 * i) = pkt.byte (2 * i))
    (h1 : pkt'.byte (2 * i + 1) = pkt.byte (2 * i + 1)) : wordAt pkt' i = wordAt pkt i := by
  rw [wordAt, wordAt, h0, h1]

/-- The other words cancel from the two sums, and the word that holds byte `j` is not word 1. -/
theorem checksum16_ne_of_byte_ne {j : Nat} (hj : j < 1024) (h2 : j ≠ 2) (h3 : j ≠ 3)
    (hsame : ∀ i, i ≠ j → pkt'.byte i = pkt.byte i) (hne : pkt'.byte j ≠ pkt.byte j) :
    checksum16 pkt' ≠ checksum16 pkt := by
  have hmem : j / 2 ∈ Finset.range 512 := Finset.mem_range.2 (by omega)
  have hword : j / 2 ≠ 1 := by omega
  have hrest : ∀ i ∈ (Finset.range 512).erase (j / 2), checksumTerm pkt' i = checksumTerm pkt i := by
    intro i hi
    have hij : i ≠ j / 2 := Finset.ne_of_mem_erase hi
    rw [checksumTerm, checksumTerm, wordAt_congr (hsame _ (by omega)) (hsame _ (by omega))]
  intro heq
  rw [checksum16_eq_sum, checksum16_eq_sum, ← Finset.add_sum_erase _ _ hmem, ← Finset.add_sum_erase _ _ hmem,
    Finset.sum_congr rfl hrest, add_left_inj, checksumTerm, checksumTerm, if_neg hword, if_neg hword] at heq
  exact wordAt_ne_of_byte_ne hne heq

/-- CHECK_REQUEST is the comparison of R113. -/
theorem checkRequest_iff (pkt : Packet) : checkRequest pkt = true ↔ storedChecksum pkt = checksum16 pkt := beq_iff_eq

theorem storedChecksum_congr (h2 : pkt'.byte 2 = pkt.byte 2) (h3 : pkt'.byte 3 = pkt.byte 3) :
    storedChecksum pkt' = storedChecksum pkt := by
  rw [storedChecksum, storedChecksum, h2, h3]

/-! The built request (40_codec.md R111, R112). -/

theorem checkRequest_buildRequest (p : Params) (offset : U32) : checkRequest (buildRequest p offset) = true :=
  checkRequest_reqLayout_iff.2 rfl

theorem opcode_reqLayout (p : Params) (c : U16) (offset : U32) :
    [(reqLayout p c offset).byte 0, (reqLayout p c offset).byte 1] = p.opcodeBytes.toList := by
  have htake : (reqBytes p c offset).take 2 = p.opcodeBytes.toList := by simp [reqBytes]
  rw [← htake, reqBytes_eq]
  simp only [Packet.byte, reqLayout, reqBytes_eq]
  rfl

theorem subcommand_reqLayout (p : Params) (c : U16) (offset : U32) :
    [(reqLayout p c offset).byte 4, (reqLayout p c offset).byte 5, (reqLayout p c offset).byte 6,
      (reqLayout p c offset).byte 7] = p.subcmdBytes.toList := by
  have htake : ((reqBytes p c offset).drop 4).take 4 = p.subcmdBytes.toList := by
    rw [reqBytes, List.append_assoc, List.append_assoc, List.drop_left' (by simp [enc16]), List.take_left' (by simp)]
  rw [← htake, reqBytes_eq]
  simp only [Packet.byte, reqLayout, reqBytes_eq]
  rfl

theorem padding_reqLayout (p : Params) (c : U16) (offset : U32) {i : Nat} (h12 : 12 ≤ i) (h1024 : i < 1024) :
    (reqLayout p c offset).byte i = 0#8 := by
  obtain ⟨j, rfl⟩ := Nat.exists_eq_add_of_le' h12
  simp only [Packet.byte, reqLayout, reqBytes_eq, List.getD_cons_succ]
  exact List.getD_replicate 0#8 (by omega)

/-- Two neighbouring bytes of an integer make the 16 bits that begin at the lower one. -/
theorem le16_byteOf_succ {w : Nat} (v : BitVec w) (i : Nat) :
    le16 (byteOf v i) (byteOf v (i + 1)) = v.extractLsb' (8 * i) 16 := by
  rw [le16, byteOf, byteOf, Nat.mul_succ]
  exact BitVec.extractLsb'_append_extractLsb'_eq_extractLsb' rfl

/-- Two opcode bytes, four of the subcommand and four of the offset are what is left beside word 1 and the padding. -/
theorem checksum16_reqLayout_eq (p : Params) (c : U16) (offset : U32) :
    checksum16 (reqLayout p c offset) =
      le16 p.opcodeBytes[0] p.opcodeBytes[1] + le16 p.subcmdBytes[0] p.subcmdBytes[1]
        + le16 p.subcmdBytes[2] p.subcmdBytes[3] + offset.extractLsb' 0 16 + offset.extractLsb' 16 16 := by
  have hlow := le16_byteOf_succ offset 0
  have hhigh := le16_byteOf_succ offset 2
  simp only [checksum16, reqLayout, reqBytes_eq, sumWords, sumWords_padding, hlow, hhigh]
  simp [add_assoc]

end

/-- Settles O9: a built request checks itself, so the field is the checksum. -/
theorem requestChecksumClosedForm : Obligations.RequestChecksumClosedForm := fun p offset =>
  ((checkRequest_iff _).1 (checkRequest_buildRequest p offset)).trans (checksum16_reqLayout_eq ..)

end Sys2Proof

namespace Sys2Proof.Machine

/-! What the four operations end in. -/

theorem exec_checksum16 (pkt : Packet) (s : State) :
    exec (.checksum16 pkt) s = .next (s.setResult (.word (checksum16 pkt))) := rfl

theorem exec_buildRequest (offset : U32) (s : State) :
    exec (.buildRequest offset) s = .next (s.setResult (.packet (buildRequest Config.params offset))) := rfl

theorem exec_checkRequest (pkt : Packet) (s : State) :
    exec (.checkRequest pkt) s = .next (s.setResult (.flag (checkRequest pkt))) := rfl

theorem exec_extractPayload (rsp : Packet) (s : State) :
    exec (.extractPayload rsp) s = .next (s.setResult (.bytes (extractPayload rsp))) := rfl

/-- Settles O7: the model's sum and the loop of the rule are the same sum over the word numbers. -/
theorem checksum16SumsTheWords : Obligations.Checksum16SumsTheWords := fun pkt s => by
  rw [exec_checksum16, checksum16_eq_sum, foldl_words_eq_sum]

/-- Settles O8: field by field, the checksum field because a built request checks itself. -/
theorem buildRequestLaysOutThePacket : Obligations.BuildRequestLaysOutThePacket := fun offset s =>
  ⟨buildRequest Config.params offset, exec_buildRequest offset s, opcode_reqLayout ..,
    (checkRequest_iff _).1 (checkRequest_buildRequest ..), subcommand_reqLayout .., requestOffset_reqLayout ..,
    fun _ h12 h1024 => padding_reqLayout _ _ _ h12 h1024⟩

/-- Settles O10: the changed packet keeps its stored checksum and gets another sum. -/
theorem checkRequestValidatesTheChecksum : Obligations.CheckRequestValidatesTheChecksum := by
  refine ⟨fun pkt s => ?_, checkRequest_buildRequest, fun pkt pkt' j hcheck hj h2 h3 hsame hne => ?_⟩
  · exact exec_checkRequest pkt s
  · have hstored : storedChecksum pkt' = storedChecksum pkt :=
      storedChecksum_congr (hsame 2 h2.symm) (hsame 3 h3.symm)
    have hsum : checksum16 pkt' ≠ checksum16 pkt := checksum16_ne_of_byte_ne hj h2 h3 hsame hne
    rw [checkRequest_iff] at hcheck
    rw [← Bool.not_eq_true, checkRequest_iff, hstored, hcheck]
    exact hsum.symm

/-- The byte count in the words of the rule (40_codec.md R114). -/
theorem payloadCount_eq (rsp : Packet) :
    payloadCount rsp = max 8 (min ((rsp.byte 4).toNat + 256 * (rsp.byte 5).toNat) 1020) - 8 := by
  rw [payloadCount, clamp_eq_max_min _ _ _ (by decide), payloadLength, le16_toNat]

/-- Settles O11: the slice has the rule's length, ends inside the packet, and its byte `j` is byte `12 + j`. -/
theorem extractPayloadSlicesTheResponse : Obligations.ExtractPayloadSlicesTheResponse := by
  intro rsp s
  have hlen := extractPayload_length rsp
  have hle := payloadCount_le rsp
  refine ⟨extractPayload rsp, exec_extractPayload rsp s, hlen.trans (payloadCount_eq rsp), by omega, fun j hj => ?_⟩
  rw [List.getElem?_eq_getElem hj, ← List.getD_eq_getElem _ 0#8 hj, extractPayload_getD (hlen ▸ hj)]

end Sys2Proof.Machine
end

section
/-! PROOFS. What a pull leaves in FB. The row reversal is read byte by byte (42_framebuffer.md R160); the copies of a list of
responses touch different chunks, so that each byte stands where its own chunk's copy put it (41_frame_transfer.md R136, R138). -/

namespace Sys2Proof.Machine

/-! The row reversal, byte by byte. -/

/-- Where the row reversal takes the byte for address `a` from: the same column of row `79 − r`. -/
def mirrored (a : Nat) : Nat := 320 * (79 - a / 320) + a % 320

/-- After `n` swaps the first and the last `n` rows are exchanged, and the rows between them stand. -/
theorem readByte_foldl_swapRows (m : Memory) {n : Nat} (hn : n ≤ 40) (a : Nat) :
    readByte ((List.range n).foldl swapRows m) a =
      if a < 320 * n ∨ (25600 - 320 * n ≤ a ∧ a < 25600) then readByte m (mirrored a) else readByte m a := by
  induction n generalizing a with
  | zero => rw [if_neg (by omega)]; rfl
  | succ n ih =>
    rw [List.range_succ, List.foldl_append, List.foldl_cons, List.foldl_nil, readByte_swapRows _ n (by omega)]
    by_cases hlow : 320 * n ≤ a ∧ a < 320 * n + 320
    · have hm : 320 * (79 - n) + (a - 320 * n) = mirrored a := by unfold mirrored; omega
      rw [if_pos hlow, ih (by omega), if_neg (by omega), if_pos (by omega), hm]
    · by_cases hhigh : 320 * (79 - n) ≤ a ∧ a < 320 * (79 - n) + 320
      · have hm : 320 * n + (a - 320 * (79 - n)) = mirrored a := by unfold mirrored; omega
        rw [if_neg hlow, if_pos hhigh, ih (by omega), if_neg (by omega), if_pos (by omega), hm]
      · rw [if_neg hlow, if_neg hhigh, ih (by omega)]
        exact if_congr (by omega) rfl rfl

/-- ROW_REVERSE, byte by byte (42_framebuffer.md R160). -/
theorem readByte_rowReverse (m : Memory) (a : Nat) :
    readByte (rowReverse m) a = if a < 25600 then readByte m (mirrored a) else readByte m a := by
  rw [rowReverse, readByte_foldl_swapRows m (le_refl 40)]
  exact if_congr (by omega) rfl rfl

theorem readByte_rowReverse_row (m : Memory) {r c : Nat} (hr : r < 80) (hc : c < 320) :
    readByte (rowReverse m) (320 * r + c) = readByte m (320 * (79 - r) + c) := by
  have hm : mirrored (320 * r + c) = 320 * (79 - r) + c := by unfold mirrored; omega
  rw [readByte_rowReverse, if_pos (by omega), hm]

/-! The chunk copies, byte by byte. -/

theorem payloadBytes_eq (rsp : Packet) : payloadBytes rsp = payloadCount rsp := (payloadCount_eq rsp).symm

/-- The copy of chunk `k` writes addresses of chunk `k` alone, and none beyond FB. -/
theorem readByte_chunkCopy_eq (m : Memory) (k : Fin Config.chunks) (rsp : Packet) (a : Nat) :
    readByte (chunkCopy m k rsp) a =
      if (a / 1012 = k.val ∧ a < 25600) ∧ a % 1012 < payloadBytes rsp then rsp.byte (12 + a % 1012) else readByte m a := by
  have hle := payloadCount_le rsp
  rw [readByte_chunkCopy, payloadBytes_eq]
  by_cases hk : a / 1012 = k.val
  · rw [show a - 1012 * k.val = a % 1012 by omega]
    exact if_congr (by omega) rfl rfl
  · rw [if_neg (by omega), if_neg (fun h => hk h.1.1)]

/-- The copies of a list of chunks, in order. -/
def copyChunks (m : Memory) (ps : List (Fin Config.chunks × Packet)) : Memory :=
  ps.foldl (fun m p => chunkCopy m p.1 p.2) m

theorem readByte_copyChunks_of_not_mem {m : Memory} {ps : List (Fin Config.chunks × Packet)} {a : Nat}
    (h : ∀ p ∈ ps, ¬(a / 1012 = p.1.val ∧ a < 25600)) : readByte (copyChunks m ps) a = readByte m a := by
  induction ps generalizing m with
  | nil => rfl
  | cons p ps ih =>
    have hp := h p List.mem_cons_self
    calc readByte (copyChunks (chunkCopy m p.1 p.2) ps) a
        = readByte (chunkCopy m p.1 p.2) a := ih fun q hq => h q (List.mem_cons_of_mem p hq)
      _ = readByte m a := by rw [readByte_chunkCopy_eq, if_neg (fun hc => hp hc.1)]

/-- Where no chunk is listed twice, a byte of a listed chunk is what that chunk's copy makes of it. -/
theorem readByte_copyChunks_of_mem {m : Memory} {ps : List (Fin Config.chunks × Packet)} {a : Nat}
    {k : Fin Config.chunks} {rsp : Packet} (hps : ps.Pairwise fun p q => p.1 ≠ q.1) (hmem : (k, rsp) ∈ ps)
    (hk : a / 1012 = k.val) : readByte (copyChunks m ps) a = readByte (chunkCopy m k rsp) a := by
  induction ps generalizing m with
  | nil => exact absurd hmem List.not_mem_nil
  | cons p ps ih =>
    obtain ⟨hne, hps⟩ := List.pairwise_cons.1 hps
    change readByte (copyChunks (chunkCopy m p.1 p.2) ps) a = _
    rcases List.mem_cons.1 hmem with rfl | hmem
    · exact readByte_copyChunks_of_not_mem fun q hq hc => hne q hq (Fin.ext (hk.symm.trans hc.1))
    · have hp : p.1 ≠ k := hne _ hmem
      have hold : readByte (chunkCopy m p.1 p.2) a = readByte m a := by
        rw [readByte_chunkCopy_eq, if_neg fun hc => hp (Fin.ext (hc.1.1.symm.trans hk))]
      rw [ih hps hmem, readByte_chunkCopy_eq (chunkCopy m p.1 p.2), hold, readByte_chunkCopy_eq m k]

/-- The first `n` chunks of a pull, in order (41_frame_transfer.md R140). -/
def firstChunks (n : Nat) : List (Fin Config.chunks) := (List.finRange Config.chunks).take n

theorem firstChunks_length {n : Nat} (hn : n ≤ 26) : (firstChunks n).length = n := by
  simpa [firstChunks] using hn

theorem firstChunks_all : firstChunks 26 = List.finRange Config.chunks := List.take_of_length_le (by simp)

/-- The chunks of a pull from chunk `j` on. -/
theorem finRange_eq_firstChunks_append {j : Nat} (hj : j < 26) :
    List.finRange Config.chunks = firstChunks j ++ ⟨j, hj⟩ :: (List.finRange Config.chunks).drop (j + 1) := by
  have hd : (List.finRange Config.chunks).drop j = ⟨j, hj⟩ :: (List.finRange Config.chunks).drop (j + 1) := by
    rw [List.drop_eq_getElem_cons (by simpa using hj), List.getElem_finRange]; rfl
  rw [← hd, firstChunks, List.take_append_drop]

/-- FB after the copies of the first responses of a pull, before any reversal. -/
def copyResponses (m : Memory) (rsps : List Packet) : Memory := copyChunks m ((firstChunks rsps.length).zip rsps)

/-- A byte of a chunk that has its response: the payload where it is long enough, and else the old byte. -/
theorem readByte_copyResponses (m : Memory) {rsps : List Packet} {rsp : Packet} {a : Nat} (hlen : rsps.length ≤ 26)
    (ha : a < 25600) (hrsp : rsps[a / 1012]? = some rsp) :
    readByte (copyResponses m rsps) a =
      if a % 1012 < payloadBytes rsp then rsp.byte (12 + a % 1012) else readByte m a := by
  have hk : a / 1012 < rsps.length := (List.getElem?_eq_some_iff.1 hrsp).1
  have hdistinct : ((firstChunks rsps.length).zip rsps).Pairwise fun p q => p.1 ≠ q.1 := by
    rw [← List.pairwise_map (f := Prod.fst) (R := (· ≠ ·)), List.map_fst_zip (firstChunks_length hlen).le]
    exact (List.nodup_finRange _).sublist (List.take_sublist _ _)
  have hmem : (⟨a / 1012, hk.trans_le hlen⟩, rsp) ∈ (firstChunks rsps.length).zip rsps := by
    refine List.mem_iff_getElem?.2 ⟨a / 1012, List.getElem?_zip_eq_some.2 ⟨?_, hrsp⟩⟩
    rw [firstChunks, List.getElem?_take_of_lt hk, List.getElem?_eq_getElem (by simp; omega), List.getElem_finRange]
    rfl
  rw [copyResponses, readByte_copyChunks_of_mem hdistinct hmem rfl, readByte_chunkCopy_eq]
  exact if_congr (and_iff_right ⟨rfl, ha⟩) rfl rfl

/-- Chunks without a response, and addresses beyond FB, keep their bytes. -/
theorem readByte_copyResponses_of_le (m : Memory) {rsps : List Packet} {a : Nat}
    (ha : 1012 * rsps.length ≤ a ∨ 25600 ≤ a) : readByte (copyResponses m rsps) a = readByte m a := by
  refine readByte_copyChunks_of_not_mem fun p hp hc => ?_
  have hk : p.1.val < rsps.length := by
    obtain ⟨i, hi, he⟩ := List.mem_take_iff_getElem.1 (List.of_mem_zip hp).1
    rw [← he, List.getElem_finRange]
    exact (lt_min_iff.1 hi).1
  omega

end Sys2Proof.Machine
end

section
/-! PROOFS. The pull as one function (41_frame_transfer.md R140), from any of its chunks on: one equation for each answer of the
transport, and from these what the given answers make of a whole pull. -/

namespace Sys2Proof.Machine

/-! The rest of a pull. -/

/-- The rest of a pull in its read phase, the chunks `ks` still to be read. -/
def State.pullReads (s : State) (h : Handle) (ks : List (Fin Config.chunks)) : PullResult × State :=
  match State.readAll h ks s with
  | (false, t) => (.errRead, t.setPc .idle 0)
  | (true, t) => (.ok, (t.setFb (rowReverse t.fb)).setPc .idle 0)

/-- The rest of a pull in its write phase, the requests for the chunks `ks` still to be sent. -/
def State.pullWrites (s : State) (h : Handle) (ks : List (Fin Config.chunks)) : PullResult × State :=
  match State.writeAll h ks s with
  | (.error, t) => (.errWrite, t.setPc .idle 0)
  | (.ok, t) => t.pullReads h (List.finRange Config.chunks)

theorem pull_eq_pullWrites (s : State) (h : Handle) : s.pull h = s.pullWrites h (List.finRange Config.chunks) := rfl

section
variable {s : State} {h : Handle} {k : Fin Config.chunks} {ks : List (Fin Config.chunks)}

theorem pullReads_nil : s.pullReads h [] = (.ok, (s.setFb (rowReverse s.fb)).setPc .idle 0) := rfl

theorem pullReads_response {rsp : Packet} (ha : s.readAnswer = .response rsp) :
    s.pullReads h (k :: ks) = ((s.tRead h).setFb (chunkCopy s.fb k rsp)).pullReads h ks := by
  simp only [State.pullReads, State.readAll, ha]

theorem pullReads_error (ha : s.readAnswer = .errorOrTimeout) :
    s.pullReads h (k :: ks) = (.errRead, (s.tRead h).setPc .idle 0) := by
  simp only [State.pullReads, State.readAll, ha]

theorem pullWrites_nil : s.pullWrites h [] = s.pullReads h (List.finRange Config.chunks) := rfl

theorem pullWrites_ok (ha : s.writeAnswer = .ok) :
    s.pullWrites h (k :: ks) = (s.tWrite h (chunkRequest Config.params k)).pullWrites h ks := by
  simp only [State.pullWrites, State.writeAll, ha]

theorem pullWrites_error (ha : s.writeAnswer = .error) :
    s.pullWrites h (k :: ks) = (.errWrite, (s.tWrite h (chunkRequest Config.params k)).setPc .idle 0) := by
  simp only [State.pullWrites, State.writeAll, ha]

end

/-! What the given answers make of a pull. -/

section
variable {s : State} {ws : List WriteAnswer} {rs : List ReadAnswer}

/-- Requests that are accepted leave their lines in the run and nothing else. -/
theorem pullWrites_of_accepted (h : Handle) (ks ls : List (Fin Config.chunks))
    (hw : s.writes = List.replicate ks.length .ok ++ ws) :
    s.pullWrites h (ks ++ ls) = State.pullWrites
      { s with writes := ws, asked := s.asked + ks.length,
               trace := s.trace ++ ks.map fun k => .write h (chunkRequest Config.params k) .ok } h ls := by
  induction ks generalizing s with
  | nil => subst hw; simp
  | cons k ks ih =>
    have ha : s.writeAnswer = .ok := State.writeAnswer_cons hw
    rw [List.cons_append, pullWrites_ok ha, ih (by simp [hw, List.replicate_succ])]
    simp [State.tWrite, ha, Nat.add_assoc, Nat.add_comm 1]

/-- Reads that give responses leave their lines in the run and their chunks in FB. -/
theorem pullReads_of_responses (h : Handle) (ks ls : List (Fin Config.chunks)) {rsps : List Packet}
    (hlen : ks.length = rsps.length) (hr : s.reads = rsps.map .response ++ rs) :
    s.pullReads h (ks ++ ls) = State.pullReads
      { s with fb := copyChunks s.fb (ks.zip rsps), reads := rs, asked := s.asked + rsps.length,
               trace := s.trace ++ readRun h rsps } h ls := by
  induction ks generalizing s rsps with
  | nil =>
    obtain rfl : rsps = [] := List.length_eq_zero_iff.1 hlen.symm
    subst hr
    simp [readRun, copyChunks]
  | cons k ks ih =>
    obtain ⟨rsp, rsps, rfl⟩ := List.exists_cons_of_length_eq_add_one hlen.symm
    have ha : s.readAnswer = .response rsp := State.readAnswer_cons hr
    rw [List.cons_append, pullReads_response ha, ih (Nat.succ.inj hlen) (by simp [hr])]
    simp [State.tRead, State.setFb, ha, readRun, copyChunks, Nat.add_assoc, Nat.add_comm 1]

/-- The lines of the first accepted requests, by the words of R131 and R133. -/
theorem map_write_firstChunks (h : Handle) {n : Nat} (hn : n ≤ 26) :
    (firstChunks n).map (fun k => .write h (chunkRequest Config.params k) .ok) = writeRun h n := by
  have hvals : (firstChunks n).map Fin.val = List.range n := by
    rw [firstChunks, List.map_take, List.map_coe_finRange_eq_range, List.take_range, Nat.min_eq_left hn]
  rw [writeRun, ← hvals, List.map_map]; rfl

/-- A write phase without an error (41_frame_transfer.md R135). -/
theorem pull_of_accepted (h : Handle) (hw : s.writes = List.replicate 26 .ok ++ ws) :
    s.pull h = State.pullReads { s with writes := ws, asked := s.asked + 26, trace := s.trace ++ writeRun h 26 } h
      (List.finRange Config.chunks) := by
  have hlen := firstChunks_length (le_refl 26)
  rw [pull_eq_pullWrites, ← firstChunks_all, ← List.append_nil (firstChunks 26),
    pullWrites_of_accepted h _ [] (by rw [hlen]; exact hw), pullWrites_nil, hlen, map_write_firstChunks h (le_refl 26),
    List.append_nil, firstChunks_all]

/-- A write failure at chunk `j` (41_frame_transfer.md R134). -/
theorem pull_of_writeFailure (h : Handle) {j : Nat} (hj : j < 26)
    (hw : s.writes = List.replicate j .ok ++ .error :: ws) :
    s.pull h = (.errWrite,
      { s with phase := .idle, k := 0, writes := ws, asked := s.asked + (j + 1),
               trace := s.trace ++ writeRun h j ++ [.write h (requestFor j) .error] }) := by
  have hlen := firstChunks_length hj.le
  rw [pull_eq_pullWrites, finRange_eq_firstChunks_append hj, pullWrites_of_accepted h _ _ (by rw [hlen]; exact hw),
    pullWrites_error (State.writeAnswer_cons rfl), map_write_firstChunks h hj.le, hlen]
  rfl

/-- Every write accepted and responses read: the chunks `ls` are left to read. -/
theorem pull_of_accepted_of_responses (h : Handle) {rsps : List Packet} {ls : List (Fin Config.chunks)}
    (hlen : rsps.length ≤ 26) (hchunks : List.finRange Config.chunks = firstChunks rsps.length ++ ls)
    (hw : s.writes = List.replicate 26 .ok ++ ws) (hr : s.reads = rsps.map .response ++ rs) :
    s.pull h = State.pullReads
      { s with fb := copyResponses s.fb rsps, writes := ws, reads := rs, asked := s.asked + 26 + rsps.length,
               trace := s.trace ++ writeRun h 26 ++ readRun h rsps } h ls := by
  rw [pull_of_accepted h hw, hchunks]
  exact pullReads_of_responses h _ ls (firstChunks_length hlen) hr

/-- A read failure after the responses `rsps` (41_frame_transfer.md R137). -/
theorem pull_of_readFailure (h : Handle) {rsps : List Packet} (hlen : rsps.length < 26)
    (hw : s.writes = List.replicate 26 .ok ++ ws) (hr : s.reads = rsps.map .response ++ .errorOrTimeout :: rs) :
    s.pull h = (.errRead,
      { s with fb := copyResponses s.fb rsps, phase := .idle, k := 0, writes := ws, reads := rs,
               asked := s.asked + (27 + rsps.length),
               trace := s.trace ++ writeRun h 26 ++ readRun h rsps ++ [.read h 2000 .errorOrTimeout] }) := by
  have hasked : s.asked + (27 + rsps.length) = s.asked + 26 + rsps.length + 1 := by omega
  rw [pull_of_accepted_of_responses h hlen.le (finRange_eq_firstChunks_append hlen) hw hr,
    pullReads_error (State.readAnswer_cons rfl), hasked]
  rfl

/-- A response for every chunk (41_frame_transfer.md R140, R145). -/
theorem pull_of_responses (h : Handle) {rsps : List Packet} (hlen : rsps.length = 26)
    (hw : s.writes = List.replicate 26 .ok ++ ws) (hr : s.reads = rsps.map .response ++ rs) :
    s.pull h = (.ok,
      { s with fb := rowReverse (copyResponses s.fb rsps), phase := .idle, k := 0, writes := ws, reads := rs,
               asked := s.asked + 52, trace := s.trace ++ writeRun h 26 ++ readRun h rsps }) := by
  have hchunks : List.finRange Config.chunks = firstChunks rsps.length ++ [] := by
    rw [hlen, firstChunks_all, List.append_nil]
  have hasked : s.asked + 52 = s.asked + 26 + rsps.length := by omega
  rw [pull_of_accepted_of_responses h hlen.le hchunks hw hr, pullReads_nil, hasked]
  simp only [State.setFb, State.setPc]

end

/-! The statements about given answers. -/

/-- PULL_FRAME in a state where it may begin is the pull, its result to the caller. -/
theorem execPullFrame_eq {s : State} {h : Handle} (hc : s.conn = .connected) (hh : s.handle = some h)
    (hp : s.phase = .idle) : exec .pullFrame s = .next ((s.pull h).2.setResult (.pulled (s.pull h).1)) := by
  simp only [exec, execPullFrame, pullHandle_eq_some_iff.2 ⟨hc, hp, hh⟩]

/-- Settles O25. -/
theorem pullFrameWriteFailureLeavesFb : Obligations.PullFrameWriteFailureLeavesFb := by
  intro s h j ws hc hh hp hj hw
  rw [execPullFrame_eq hc hh hp, pull_of_writeFailure h hj hw]
  rfl

/-- Settles O26: FB ends as the copies of the responses that came. -/
theorem pullFrameReadFailureKeepsEarlierChunks : Obligations.PullFrameReadFailureKeepsEarlierChunks := by
  intro s h rsps ws rs hc hh hp hlen hw hr
  refine ⟨copyResponses s.fb rsps, ?_, ?_, fun a ha => readByte_copyResponses_of_le s.fb (.inl ha)⟩
  · rw [execPullFrame_eq hc hh hp, pull_of_readFailure h hlen hw hr]
    rfl
  · intro k rsp i hrsp hi
    have hk : k < rsps.length := (List.getElem?_eq_some_iff.1 hrsp).1
    have hdiv : (1012 * k + i) / 1012 = k := by omega
    have hmod : (1012 * k + i) % 1012 = i := by omega
    rw [readByte_copyResponses s.fb hlen.le (by omega) (hdiv ▸ hrsp), hmod]
    exact if_congr (by omega) rfl rfl

/-- A byte of the frame after 26 responses: the byte of the stream in the mirrored row (41_frame_transfer.md R142). -/
theorem readByte_rowReverse_copyResponses (m : Memory) {rsps : List Packet} {rsp : Packet} {r c a : Nat}
    (hlen : rsps.length ≤ 26) (hr : r < 80) (hc : c < 320) (ha : a = 320 * (79 - r) + c)
    (hrsp : rsps[a / 1012]? = some rsp) :
    readByte (rowReverse (copyResponses m rsps)) (320 * r + c) =
      if a % 1012 < payloadBytes rsp then rsp.byte (12 + a % 1012) else readByte m a := by
  rw [readByte_rowReverse_row _ hr hc, ← ha, readByte_copyResponses m hlen (by omega) hrsp]

/-- Settles O55. -/
theorem pullFrameTakesEveryResponse : Obligations.PullFrameTakesEveryResponse := by
  intro s h rsps ws rs hc hh hp hlen hw hr
  refine ⟨rowReverse (copyResponses s.fb rsps), ?_, ?_, fun a ha => ?_⟩
  · rw [execPullFrame_eq hc hh hp, pull_of_responses h hlen hw hr]
    rfl
  · exact fun r c a rsp hrow hcol ha hrsp => readByte_rowReverse_copyResponses s.fb hlen.le hrow hcol ha hrsp
  · rw [readByte_rowReverse, if_neg (by omega), readByte_copyResponses_of_le s.fb (.inr ha)]

/-- TICK_FAST in Connected, in service and idle, is the pull and its report (44_scheduler.md R190). -/
theorem execTickFast_eq {s : State} {h : Handle} (hv : s.inService = true) (hc : s.conn = .connected)
    (hh : s.handle = some h) (hp : s.phase = .idle) :
    exec .tickFast s = .next (((s.log (.command .tickFast)).pullAndReport h).setResult .nothing) := by
  simp only [exec, execTickFast, turnedAway_eq_none_iff.2 ⟨hv, hp⟩, hc, hh]

theorem pullAndReport_ok {s t : State} {h : Handle} (ht : s.pull h = (.ok, t)) :
    s.pullAndReport h = t.log (.frameReady (snapshot t.fb)) := by
  simp only [State.pullAndReport, ht]

/-- Settles O27: the pull of O55 after the line of the command, and each payload reaches its byte. -/
theorem fullFrameIsReassembled : Obligations.FullFrameIsReassembled := by
  intro s h rsps ws rs hv hc hh hp hlen hfull hw hr
  refine ⟨rowReverse (copyResponses s.fb rsps), ?_, fun r c rsp hrow hcol hrsp => ?_⟩
  · have hpull := pull_of_responses (s := s.log (.command .tickFast)) h hlen hw hr
    rw [execTickFast_eq hv hc hh hp, pullAndReport_ok hpull]
    rfl
  · have hlong := hfull _ _ hrsp
    have hpayload : (320 * (79 - r) + c) % 1012 < payloadBytes rsp := by split at hlong <;> omega
    rw [readByte_rowReverse_copyResponses s.fb hlen.le hrow hcol rfl hrsp, if_pos hpayload]

end Sys2Proof.Machine
end

section
/-! PROOFS. How far a pull goes, whatever the transport answers (41_frame_transfer.md R130, R140): every transaction is a request of
the 26 or a read, on the handle, and each chunk has at most one of either. -/

namespace Sys2Proof.Machine

/-- A transaction of a pull on the handle `h`: the request for one of the 26 chunks, or a read (20_memory.md R63). -/
def PullTransaction (h : Handle) (l : Label) : Prop :=
  (∃ k a, k < 26 ∧ l = Label.write h (requestFor k) a) ∨ ∃ a, l = Label.read h 2000 a

/-- The run of `t` is that of `s` with at most `n` transactions of a pull added. -/
def State.AddsAtMost (s t : State) (h : Handle) (n : Nat) : Prop :=
  ∃ run, t.trace = s.trace ++ run ∧ run.length ≤ n ∧ ∀ l ∈ run, PullTransaction h l

section
variable {s t : State} {h : Handle}

theorem addsAtMost_of_trace_eq (ht : t.trace = s.trace) (h : Handle) : s.AddsAtMost t h 0 :=
  ⟨[], by rw [ht, List.append_nil], le_refl 0, nofun⟩

theorem State.AddsAtMost.mono {n n' : Nat} (ht : s.AddsAtMost t h n) (hn : n ≤ n') : s.AddsAtMost t h n' := by
  obtain ⟨run, htrace, hlen, hrun⟩ := ht
  exact ⟨run, htrace, hlen.trans hn, hrun⟩

theorem State.AddsAtMost.trans {u : State} {m n : Nat} (ht : s.AddsAtMost t h m) (hu : t.AddsAtMost u h n) :
    s.AddsAtMost u h (n + m) := by
  obtain ⟨run, htrace, hlen, hrun⟩ := ht
  obtain ⟨run', htrace', hlen', hrun'⟩ := hu
  refine ⟨run ++ run', by rw [htrace', htrace, List.append_assoc], by rw [List.length_append]; omega, fun l hl => ?_⟩
  exact (List.mem_append.1 hl).elim (hrun l) (hrun' l)

theorem tWrite_addsAtMost (s : State) (h : Handle) (k : Fin Config.chunks) :
    s.AddsAtMost (s.tWrite h (chunkRequest Config.params k)) h 1 :=
  ⟨[_], rfl, le_refl 1, fun _ hl => .inl ⟨k.val, _, k.isLt, List.mem_singleton.1 hl⟩⟩

theorem tRead_addsAtMost (s : State) (h : Handle) : s.AddsAtMost (s.tRead h) h 1 :=
  ⟨[_], rfl, le_refl 1, fun _ hl => .inr ⟨_, List.mem_singleton.1 hl⟩⟩

theorem pullReads_addsAtMost (s : State) (h : Handle) (ks : List (Fin Config.chunks)) :
    s.AddsAtMost (s.pullReads h ks).2 h ks.length := by
  induction ks generalizing s with
  | nil => rw [pullReads_nil]; exact addsAtMost_of_trace_eq (by simp) h
  | cons k ks ih =>
    have hread := tRead_addsAtMost s h
    cases ha : s.readAnswer with
    | response rsp => rw [pullReads_response ha]; exact hread.trans (ih ((s.tRead h).setFb _))
    | errorOrTimeout => rw [pullReads_error ha]; exact hread.mono (by simp)

theorem pullWrites_addsAtMost (s : State) (h : Handle) (ks : List (Fin Config.chunks)) :
    s.AddsAtMost (s.pullWrites h ks).2 h (26 + ks.length) := by
  induction ks generalizing s with
  | nil => exact (pullReads_addsAtMost s h (List.finRange Config.chunks)).mono (by simp)
  | cons k ks ih =>
    have hwrite := tWrite_addsAtMost s h k
    cases ha : s.writeAnswer with
    | ok => rw [pullWrites_ok ha]; exact hwrite.trans (ih _)
    | error => rw [pullWrites_error ha]; exact hwrite.mono (by omega)

theorem pull_addsAtMost (s : State) (h : Handle) : s.AddsAtMost (s.pull h).2 h 52 :=
  (pullWrites_addsAtMost s h (List.finRange Config.chunks)).mono (by simp)

end

/-- Settles O24: the frame is that of every pull (`pull_frame`), and the lines it adds are counted above. -/
theorem pullFrameAlwaysEnds : Obligations.PullFrameAlwaysEnds := by
  intro s h hc hh hp
  obtain ⟨m, ws, rs, n, run, hpull, -, -⟩ := pull_frame h s
  obtain ⟨run', htrace, hlen, hrun⟩ := pull_addsAtMost s h
  obtain rfl : run = run' := List.append_cancel_left (show s.trace ++ run = s.trace ++ run' by rw [← htrace, hpull])
  refine ⟨m, ws, rs, n, run, (s.pull h).1, ?_, hlen, hrun⟩
  rw [execPullFrame_eq hc hh hp, hpull]
  rfl

end Sys2Proof.Machine
end

section
/-! PROOFS. The steps of a pull against the pull as one function (41_frame_transfer.md R140, R141; the spec's decision D7). A state
inside a pull has the rest of its pull: the chunks from K on. Each step with nothing presented keeps that rest or
ends as it ends. -/

namespace Sys2Proof.Machine

/-! The rest of a pull does not read the position or the result. -/

theorem pullReads_setPc_setResult (s : State) (h : Handle) (ks : List (Fin Config.chunks)) (p : Phase)
    (k : Fin Config.chunks) (v : Value) :
    ((s.setPc p k).setResult v).pullReads h ks = ((s.pullReads h ks).1, (s.pullReads h ks).2.setResult v) := by
  induction ks generalizing s with
  | nil => rfl
  | cons j ks ih =>
    cases ha : s.readAnswer with
    | response rsp =>
      rw [pullReads_response ha, pullReads_response (s := (s.setPc p k).setResult v) ha]
      exact ih ((s.tRead h).setFb (chunkCopy s.fb j rsp))
    | errorOrTimeout =>
      rw [pullReads_error ha, pullReads_error (s := (s.setPc p k).setResult v) ha]
      rfl

theorem pullWrites_setPc_setResult (s : State) (h : Handle) (ks : List (Fin Config.chunks)) (p : Phase)
    (k : Fin Config.chunks) (v : Value) :
    ((s.setPc p k).setResult v).pullWrites h ks = ((s.pullWrites h ks).1, (s.pullWrites h ks).2.setResult v) := by
  induction ks generalizing s with
  | nil => exact pullReads_setPc_setResult s h _ p k v
  | cons j ks ih =>
    cases ha : s.writeAnswer with
    | ok =>
      rw [pullWrites_ok ha, pullWrites_ok (s := (s.setPc p k).setResult v) ha]
      exact ih (s.tWrite h (chunkRequest Config.params j))
    | error =>
      rw [pullWrites_error ha, pullWrites_error (s := (s.setPc p k).setResult v) ha]
      rfl

/-! Where the steps of a pull arrive. -/

/-- The steps ended in `t` as the pull as one function ended in `p`: the same state, and a result that stands for its result
(60_exceptions.md R201). -/
def State.EndsAs (t : State) (p : PullResult × State) : Prop :=
  t.phase = .idle ∧ p.2.setResult (.pulled p.1) = t.setResult (.pulled p.1) ∧
    (t.result = .pulled p.1 ∨ ∃ e, t.result = .raised e ∧ e.pullResult = some p.1)

/-- Within `n` steps the machine ends as `p`. -/
def State.StepsTo (s : State) (n : Nat) (p : PullResult × State) : Prop :=
  ∃ m t, m ≤ n ∧ core.run m s = .next t ∧ t.EndsAs p

theorem run_succ_of_step (M : Host.Core) {s s' : M.State} (hstep : M.step s = .next s') (m : Nat) :
    M.run (m + 1) s = M.run m s' := by
  simp only [Host.Core.run, hstep]

section
variable {s s' t : State} {n : Nat} {p : PullResult × State}

theorem stepsTo_of_step_endsAs (hstep : step s = .next t) (ht : t.EndsAs p) : s.StepsTo (n + 1) p :=
  ⟨1, t, by omega, run_succ_of_step core hstep 0, ht⟩

theorem stepsTo_of_step (hstep : step s = .next s') (hs' : s'.StepsTo n p) : s.StepsTo (n + 1) p := by
  obtain ⟨m, t, hm, hrun, ht⟩ := hs'
  exact ⟨m + 1, t, by omega, (run_succ_of_step core hstep m).trans hrun, ht⟩

theorem State.StepsTo.mono {n' : Nat} (hs : s.StepsTo n p) (hn : n ≤ n') : s.StepsTo n' p := by
  obtain ⟨m, t, hm, hrun, ht⟩ := hs
  exact ⟨m, t, hm.trans hn, hrun, ht⟩

/-- The result of `p`'s state is overwritten in the comparison. -/
theorem State.StepsTo.of_setResult {v : Value} (hs : s.StepsTo n (p.1, p.2.setResult v)) : s.StepsTo n p := hs

theorem endsAs_raise {e : ErrorKind} {r : PullResult} (he : e.pullResult = some r) :
    (s.raise e).EndsAs (r, s.setPc .idle 0) := ⟨rfl, rfl, .inr ⟨e, rfl, he⟩⟩

/-! The chunks from K on. -/

/-- The chunks of a pull from chunk `k` on. -/
def chunksFrom (k : Nat) : List (Fin Config.chunks) := (List.finRange Config.chunks).drop k

theorem chunksFrom_eq_cons (k : Fin Config.chunks) : chunksFrom k.val = k :: chunksFrom (k.val + 1) := by
  rw [chunksFrom, List.drop_eq_getElem_cons (by simp), List.getElem_finRange]; rfl

theorem chunksFrom_last {k : Fin Config.chunks} (hk : k.val = 25) : chunksFrom k.val = [k] := by
  rw [chunksFrom_eq_cons, hk]; rfl

/-! The step with nothing presented. -/

variable {h : Handle}

theorem step_eq_sendRequest (hport : s.port = []) (hp : s.phase = .writePhase) (hh : s.handle = some h) :
    step s = .next (s.sendRequest h (chunkRequest Config.params s.k)) :=
  (step_of_sequencer_some (i := .writeStep) hport (by rw [sequencer, hp])).trans (execWriteStep_eq hp hh)

theorem step_eq_receiveResponse (hport : s.port = []) (hp : s.phase = .readPhase) (hh : s.handle = some h) :
    step s = .next (s.receiveResponse h) :=
  (step_of_sequencer_some (i := .readStep) hport (by rw [sequencer, hp])).trans (execReadStep_eq hp hh)

theorem sendRequest_next {q : Packet} (ha : s.writeAnswer = .ok) (hk : s.k.val ≠ 25) :
    s.sendRequest h q = ((s.tWrite h q).setPc .writePhase (nextChunk s.k)).setResult .nothing := by
  rw [sendRequest_ok ha, afterWrite_eq, if_neg (by exact hk)]; rfl

theorem sendRequest_last {q : Packet} (ha : s.writeAnswer = .ok) (hk : s.k.val = 25) :
    s.sendRequest h q = ((s.tWrite h q).setPc .readPhase 0).setResult .nothing := by
  rw [sendRequest_ok ha, afterWrite_eq, if_pos (by exact hk)]; rfl

theorem acceptResponse_next (rsp : Packet) (hk : s.k.val ≠ 25) :
    s.acceptResponse rsp =
      ((s.setFb (chunkCopy s.fb s.k rsp)).setPc .readPhase (nextChunk s.k)).setResult .nothing := by
  rw [acceptResponse_eq, if_neg hk]; rfl

theorem acceptResponse_last (rsp : Packet) (hk : s.k.val = 25) :
    s.acceptResponse rsp =
      ((s.setFb (rowReverse (chunkCopy s.fb s.k rsp))).setPc .idle 0).setResult (.pulled .ok) := by
  rw [acceptResponse_eq, if_pos hk]; simp only [State.setFb, State.setPc, State.setResult]

theorem nextChunk_val_of_ne {k : Fin Config.chunks} (hk : k.val ≠ 25) : (nextChunk k).val = k.val + 1 :=
  nextChunk_val (Bool.eq_false_iff.2 fun hl => hk (lastChunk_iff.1 hl))

/-! The steps of each phase. -/

/-- From chunk K of the read phase, the steps end as the rest of the pull does. -/
theorem stepsTo_pullReads (hport : s.port = []) (hp : s.phase = .readPhase) (hh : s.handle = some h)
    (hn : s.k.val + n = 26) : s.StepsTo n (s.pullReads h (chunksFrom s.k.val)) := by
  induction n generalizing s with
  | zero => have hk : s.k.val < 26 := s.k.isLt; omega
  | succ n ih =>
    have hstep := step_eq_receiveResponse hport hp hh
    cases ha : s.readAnswer with
    | errorOrTimeout =>
      rw [receiveResponse_error ha] at hstep
      rw [chunksFrom_eq_cons, pullReads_error ha]
      exact stepsTo_of_step_endsAs hstep (endsAs_raise rfl)
    | response rsp =>
      rw [receiveResponse_response ha] at hstep
      by_cases hk : s.k.val = 25
      · rw [acceptResponse_last (s := s.tRead h) rsp hk] at hstep
        rw [chunksFrom_last hk, pullReads_response ha, pullReads_nil]
        exact stepsTo_of_step_endsAs hstep ⟨rfl, rfl, .inl rfl⟩
      · rw [acceptResponse_next (s := s.tRead h) rsp hk] at hstep
        have hnext := nextChunk_val_of_ne hk
        rw [chunksFrom_eq_cons, pullReads_response ha, ← hnext]
        refine stepsTo_of_step hstep (State.StepsTo.of_setResult (v := .nothing) ?_)
        rw [← pullReads_setPc_setResult _ h _ .readPhase (nextChunk s.k) .nothing]
        exact ih hport rfl hh (by simp [hnext]; omega)

/-- From chunk K of the write phase, the steps end as the rest of the pull does. -/
theorem stepsTo_pullWrites (hport : s.port = []) (hp : s.phase = .writePhase) (hh : s.handle = some h)
    (hn : s.k.val + n = 26) : s.StepsTo (26 + n) (s.pullWrites h (chunksFrom s.k.val)) := by
  induction n generalizing s with
  | zero => have hk : s.k.val < 26 := s.k.isLt; omega
  | succ n ih =>
    have hstep := step_eq_sendRequest hport hp hh
    cases ha : s.writeAnswer with
    | error =>
      rw [sendRequest_error ha] at hstep
      rw [chunksFrom_eq_cons, pullWrites_error ha]
      exact stepsTo_of_step_endsAs hstep (endsAs_raise rfl)
    | ok =>
      by_cases hk : s.k.val = 25
      · rw [sendRequest_last ha hk] at hstep
        rw [chunksFrom_last hk, pullWrites_ok ha, pullWrites_nil]
        refine (stepsTo_of_step (n := 26) hstep (State.StepsTo.of_setResult (v := .nothing) ?_)).mono (by omega)
        rw [← pullReads_setPc_setResult _ h _ .readPhase 0 .nothing]
        exact stepsTo_pullReads hport rfl hh rfl
      · rw [sendRequest_next ha hk] at hstep
        have hnext := nextChunk_val_of_ne hk
        rw [chunksFrom_eq_cons, pullWrites_ok ha, ← hnext]
        refine stepsTo_of_step (n := 26 + n) hstep (State.StepsTo.of_setResult (v := .nothing) ?_)
        rw [← pullWrites_setPc_setResult _ h _ .writePhase (nextChunk s.k) .nothing]
        exact ih hport rfl hh (by simp [hnext]; omega)

end

/-! The whole pull. -/

theorem execPullStart_eq {s : State} {h : Handle} (hc : s.conn = .connected) (hh : s.handle = some h)
    (hp : s.phase = .idle) : exec .pullStart s = .next ((s.setPc .writePhase 0).setResult .nothing) := by
  simp only [exec, execPullStart, pullHandle_eq_some_iff.2 ⟨hc, hp, hh⟩]

/-- Settles O28: after PULL_START the rest of the pull is the whole pull. -/
theorem sequencerRefinesPullFrame : Obligations.SequencerRefinesPullFrame := by
  intro s h hc hh hp hport
  have hsteps : ((s.setPc .writePhase 0).setResult .nothing).StepsTo 52 (s.pull h) := by
    rw [pull_eq_pullWrites]
    refine State.StepsTo.of_setResult (v := .nothing) ?_
    rw [← pullWrites_setPc_setResult s h _ .writePhase 0 .nothing]
    exact stepsTo_pullWrites (n := 26) hport rfl hh rfl
  obtain ⟨n, t, hn, hrun, hidle, hstate, hresult⟩ := hsteps
  refine ⟨n, t, _, (s.pull h).1, hn, execPullStart_eq hc hh hp, hrun, hidle, ?_, hresult⟩
  rw [execPullFrame_eq hc hh hp, hstate]

end Sys2Proof.Machine
end

section
/-! PROOFS. What runs inside a pull (41_frame_transfer.md R130, 44_scheduler.md R192, 70_reset_and_hazards.md R230; log 15). Of the
operations that nothing bars there, the pure functions add no line, four are the transaction that is due, RESET is the third
case, and the rest are refused for the position. -/

namespace Sys2Proof.Machine

/-- A step that goes on is one transaction of the pull on the held handle, and moves the position to the next chunk, to the
read phase after chunk 25, or to (Idle, 0). -/
def State.AdvancesPull (s t : State) : Prop :=
  ∃ h l, s.handle = some h ∧ t.trace = s.trace ++ [l] ∧ t.conn = s.conn ∧ t.handle = s.handle ∧
    ((s.phase = .writePhase ∧ t.fb = s.fb ∧ ∃ a, l = Label.write h (requestFor s.k.val) a) ∨
      (s.phase = .readPhase ∧ ∃ a, l = Label.read h 2000 a)) ∧
    ((t.phase = s.phase ∧ t.k.val = s.k.val + 1) ∨ (t.phase = .idle ∧ t.k = 0) ∨
      (s.phase = .writePhase ∧ s.k.val = 25 ∧ t.phase = .readPhase ∧ t.k = 0))

/-- What an operation inside a pull may be: nothing to the block and its run, or the transaction that is due. -/
def State.RestsOrAdvances (s t : State) : Prop := (t.toBlock = s.toBlock ∧ t.trace = s.trace) ∨ s.AdvancesPull t

section
variable {s t : State}

/-! The transactions that are due. -/

theorem sendRequest_advancesPull {h : Handle} (hp : s.phase = .writePhase) (hh : s.handle = some h) :
    s.AdvancesPull (s.sendRequest h (chunkRequest Config.params s.k)) := by
  have hlabel : ∃ a, Label.write h (chunkRequest Config.params s.k) s.writeAnswer = .write h (requestFor s.k.val) a :=
    ⟨_, rfl⟩
  cases ha : s.writeAnswer with
  | error =>
    rw [sendRequest_error ha]
    exact ⟨h, _, hh, rfl, rfl, rfl, .inl ⟨hp, rfl, hlabel⟩, .inr (.inl ⟨rfl, rfl⟩)⟩
  | ok =>
    by_cases hk : s.k.val = 25
    · rw [sendRequest_last ha hk]
      exact ⟨h, _, hh, rfl, rfl, rfl, .inl ⟨hp, rfl, hlabel⟩, .inr (.inr ⟨hp, hk, rfl, rfl⟩)⟩
    · rw [sendRequest_next ha hk]
      exact ⟨h, _, hh, rfl, rfl, rfl, .inl ⟨hp, rfl, hlabel⟩, .inl ⟨hp.symm, nextChunk_val_of_ne hk⟩⟩

/-- A state after the read that is due, its other registers as they were, goes on by accepting a response. -/
theorem acceptResponse_advancesPull {h : Handle} {a : ReadAnswer} (rsp : Packet) (hp : s.phase = .readPhase)
    (hh : s.handle = some h) (hblock : t.toBlock = s.toBlock) (htrace : t.trace = s.trace ++ [.read h 2000 a]) :
    s.AdvancesPull (t.acceptResponse rsp) := by
  have hchunk : t.k.val = s.k.val := congrArg (fun b => b.k.val) hblock
  have hframe : t.TransferFrame (t.acceptResponse rsp) := acceptResponse_transferFrame rsp (by simp [hblock, hp])
  refine ⟨h, _, hh, (acceptResponse_trace t rsp).trans htrace, hframe.conn.trans (congrArg Block.conn hblock),
    hframe.handle.trans (congrArg Block.handle hblock), .inr ⟨hp, a, rfl⟩, ?_⟩
  by_cases hk : t.k.val = 25
  · rw [acceptResponse_last rsp hk]
    exact .inr (.inl ⟨rfl, rfl⟩)
  · rw [acceptResponse_next rsp hk]
    exact .inl ⟨hp.symm, (nextChunk_val_of_ne hk).trans (congrArg (· + 1) hchunk)⟩

theorem receiveResponse_advancesPull {h : Handle} (hp : s.phase = .readPhase) (hh : s.handle = some h) :
    s.AdvancesPull (s.receiveResponse h) := by
  cases ha : s.readAnswer with
  | errorOrTimeout =>
    rw [receiveResponse_error ha]
    exact ⟨h, _, hh, rfl, rfl, rfl, .inr ⟨hp, _, rfl⟩, .inr (.inl ⟨rfl, rfl⟩)⟩
  | response rsp =>
    rw [receiveResponse_response ha]
    exact acceptResponse_advancesPull (t := s.tRead h) rsp hp hh rfl rfl

theorem execWriteStep_advancesPull (he : execWriteStep s = .next t) : s.AdvancesPull t := by
  unfold execWriteStep at he
  split at he
  · next h hph =>
    obtain ⟨hp, hh⟩ := phaseHandle_eq_some_iff.1 hph
    cases he
    exact sendRequest_advancesPull hp hh
  · cases he

theorem execReadStep_advancesPull (he : execReadStep s = .next t) : s.AdvancesPull t := by
  unfold execReadStep at he
  split at he
  · next h hph =>
    obtain ⟨hp, hh⟩ := phaseHandle_eq_some_iff.1 hph
    cases he
    exact receiveResponse_advancesPull hp hh
  · cases he

theorem execReqReadFb_advancesPull {pkt : Packet} (he : execReqReadFb pkt s = .next t) : s.AdvancesPull t := by
  unfold execReqReadFb at he
  split at he
  · next h hph =>
    obtain ⟨hp, hh⟩ := phaseHandle_eq_some_iff.1 hph
    split at he
    · next hdue =>
      cases he
      rw [hdue]
      exact sendRequest_advancesPull hp hh
    · cases he
  · cases he

theorem execRspReadFb_advancesPull {rsp : Packet} (he : execRspReadFb rsp s = .next t) : s.AdvancesPull t := by
  obtain ⟨h, hp, hh, rfl⟩ := exists_handle_of_execRspReadFb he
  exact acceptResponse_advancesPull (t := s.tReadOf h rsp) rsp hp hh rfl rfl

/-! The operations refused for the position. -/

theorem pullHandle_eq_none (hp : s.phase ≠ .idle) : s.pullHandle = none :=
  Option.eq_none_iff_forall_not_mem.2 fun _ hh => hp (pullHandle_eq_some_iff.1 hh).2.1

theorem execPullStart_ne_next (hp : s.phase ≠ .idle) : execPullStart s ≠ .next t := by
  rw [execPullStart, pullHandle_eq_none hp]
  nofun

theorem exists_turnedAway (hp : s.phase ≠ .idle) : ∃ r, s.turnedAway = some r :=
  Option.ne_none_iff_exists'.1 fun hn => hp (turnedAway_eq_none_iff.1 hn).2

theorem execConnect_ne_next (hp : s.phase ≠ .idle) : execConnect s ≠ .next t := by
  obtain ⟨r, hr⟩ := exists_turnedAway hp
  rw [execConnect, hr]
  nofun

theorem execShutdown_ne_next (hp : s.phase ≠ .idle) : execShutdown s ≠ .next t := by
  obtain ⟨r, hr⟩ := exists_turnedAway hp
  rw [execShutdown, hr]
  nofun

theorem execTickFast_ne_next (hp : s.phase ≠ .idle) : execTickFast s ≠ .next t := by
  obtain ⟨r, hr⟩ := exists_turnedAway hp
  rw [execTickFast, hr]
  nofun

theorem execTickSlow_ne_next (hp : s.phase ≠ .idle) : execTickSlow s ≠ .next t := by
  obtain ⟨r, hr⟩ := exists_turnedAway hp
  rw [execTickSlow, hr]
  nofun

/-! Everything that runs there. -/

/-- An operation that is not barred inside a pull and goes on there rests or advances the pull, or is RESET. -/
theorem exec_restsOrAdvances {i : Instr} (hp : s.phase ≠ .idle) (hrun : i.kind.runsInPull = true) (hi : i ≠ .reset)
    (he : exec i s = .next t) : s.RestsOrAdvances t := by
  cases i with
  | reqReadFb q => exact .inr (execReqReadFb_advancesPull he)
  | rspReadFb r => exact .inr (execRspReadFb_advancesPull he)
  | checksum16 q => cases he; exact .inl ⟨rfl, rfl⟩
  | buildRequest o => cases he; exact .inl ⟨rfl, rfl⟩
  | checkRequest q => cases he; exact .inl ⟨rfl, rfl⟩
  | extractPayload r => cases he; exact .inl ⟨rfl, rfl⟩
  | selectDevice ds => cases he; exact .inl ⟨rfl, rfl⟩
  | pullStart => exact absurd he (execPullStart_ne_next hp)
  | writeStep => exact .inr (execWriteStep_advancesPull he)
  | readStep => exact .inr (execReadStep_advancesPull he)
  | connect => exact absurd he (execConnect_ne_next hp)
  | shutdown => exact absurd he (execShutdown_ne_next hp)
  | tickFast => exact absurd he (execTickFast_ne_next hp)
  | tickSlow => exact absurd he (execTickSlow_ne_next hp)
  | reset => exact absurd rfl hi
  | pullFrame | rowReverse | fbZero | fbSnapshot | ioFailure | reconnectAttempt | openAttempt => cases hrun

/-- The operation at the front of the port is the one presented. -/
theorem presented_of_port {p : Presented} {rest : List Presented} {i : Instr} (hport : s.port = p :: rest)
    (hd : decode p.bytes = .ok i) : s.presented = some i := by
  simp only [State.presented, fetch_cons hport, hd, Except.toOption]

end

/-- Settles O59: what is presented and not barred, or with nothing presented the step that is due. -/
theorem nothingRunsBetweenTheStepsOfAPull : Obligations.NothingRunsBetweenTheStepsOfAPull := by
  intro s t hp hstep
  obtain ⟨p, rest, i, hport, hd, -, hrun, he⟩ | ⟨-, -, he⟩ | ⟨-, -, he⟩ | ⟨-, hidle, -⟩ := step_cases hstep
  · by_cases hi : i = .reset
    · exact .inr (.inl (hi ▸ presented_of_port hport hd))
    · exact (exec_restsOrAdvances (s := s.setPort rest) hp (hrun.resolve_left hp) hi he).imp_right .inr
  · exact .inr (.inr (execWriteStep_advancesPull he))
  · exact .inr (.inr (execReadStep_advancesPull he))
  · exact absurd hidle hp

end Sys2Proof.Machine
end

section
/-! PROOFS. The framebuffer operations (42_framebuffer.md). The row reversal moves each byte by `mirrored`, an involution of the
25600 byte positions (R160, R161); zeroing and the snapshot are read byte by byte (R162, R163); and of the operations that
hold none of the four writers of FB, those that touch the port only send a request (R165). -/

namespace Sys2Proof.Machine

/-! What the three operations end in. -/

theorem exec_rowReverse (s : State) : exec .rowReverse s = .next ((s.setFb (rowReverse s.fb)).setResult .nothing) := rfl

theorem exec_fbZero (s : State) : exec .fbZero s = .next ((s.setFb zeroedFb).setResult .nothing) := rfl

theorem exec_fbSnapshot (s : State) : exec .fbSnapshot s = .next (s.setResult (.bytes (snapshot s.fb))) := rfl

/-! The row reversal as a permutation of the byte positions. -/

theorem mirrored_lt {a : Nat} (h : a < 25600) : mirrored a < 25600 := by
  unfold mirrored
  omega

/-- Row `79 − (79 − r)` is row `r`, and the column stays. -/
theorem mirrored_mirrored {a : Nat} (h : a < 25600) : mirrored (mirrored a) = a := by
  have hrow : mirrored a / 320 = 79 - a / 320 := by unfold mirrored; omega
  have hcol : mirrored a % 320 = a % 320 := by unfold mirrored; omega
  rw [mirrored, hrow, hcol]
  omega

/-- `mirrored` on the byte positions of FB. -/
def mirroredPosition (a : Fin 25600) : Fin 25600 := ⟨mirrored a.val, mirrored_lt a.isLt⟩

theorem mirroredPosition_involutive : Function.Involutive mirroredPosition :=
  fun a => Fin.ext (mirrored_mirrored a.isLt)

theorem readByte_rowReverse_position (m : Memory) (a : Fin 25600) :
    readByte (rowReverse m) a.val = readByte m (mirroredPosition a).val := by
  rw [readByte_rowReverse, if_pos a.isLt, mirroredPosition]

theorem readByte_rowReverse_of_le (m : Memory) {a : Nat} (h : 25600 ≤ a) : readByte (rowReverse m) a = readByte m a := by
  rw [readByte_rowReverse, if_neg h.not_gt]

theorem readByte_rowReverse_rowReverse (m : Memory) (a : Nat) : readByte (rowReverse (rowReverse m)) a = readByte m a := by
  by_cases h : a < 25600
  · rw [readByte_rowReverse, if_pos h, readByte_rowReverse, if_pos (mirrored_lt h), mirrored_mirrored h]
  · rw [readByte_rowReverse_of_le _ (not_lt.1 h), readByte_rowReverse_of_le _ (not_lt.1 h)]

/-- Canonical framebuffers with equal bytes are equal, so the involution holds of the data too (log 6). -/
theorem rowReverse_rowReverse {m : Memory} (h : m.wf) : rowReverse (rowReverse m) = m :=
  memory_ext (rowReverse_wf (rowReverse_wf h)) h (readByte_rowReverse_rowReverse m)

/-- Every byte of a reversed framebuffer is a byte of the framebuffer. -/
theorem exists_readByte_rowReverse_eq (m : Memory) (a : Nat) : ∃ b, readByte (rowReverse m) a = readByte m b := by
  rw [readByte_rowReverse]
  split
  · exact ⟨mirrored a, rfl⟩
  · exact ⟨a, rfl⟩

/-- Settles O13: row by row, and nothing moves beyond FB. -/
theorem rowReverseFlipsTheRows : Obligations.RowReverseFlipsTheRows := fun s =>
  ⟨rowReverse s.fb, exec_rowReverse s, fun _ _ hr hc => readByte_rowReverse_row s.fb hr hc,
    fun _ ha => readByte_rowReverse_of_le s.fb ha⟩

/-- Settles O14: the permutation is the mirror of the positions, and a zero byte can only come from a zero byte. -/
theorem rowReverseIsAnInvolution : Obligations.RowReverseIsAnInvolution := by
  refine ⟨fun m => rowReverse_rowReverse, readByte_rowReverse_rowReverse,
    ⟨mirroredPosition_involutive.toPerm, readByte_rowReverse_position⟩, fun m hzero a => ?_⟩
  obtain ⟨b, hb⟩ := exists_readByte_rowReverse_eq m a
  rw [hb, hzero]

/-! Zeroing and the snapshot. -/

/-- Settles O15: the zeroed framebuffer lists no byte. -/
theorem fbZeroClearsEveryByte : Obligations.FbZeroClearsEveryByte := fun s =>
  ⟨zeroedFb, exec_fbZero s, readByte_nil⟩

theorem snapshot_getElem? (m : Memory) {a : Nat} (h : a < 25600) : (snapshot m)[a]? = some (readByte m a) := by
  simp [snapshot, memRead_eq_map, h]

/-- Settles O16: the snapshot is the read of 25600 bytes from address 0. -/
theorem snapshotReadsEveryByte : Obligations.SnapshotReadsEveryByte := fun s =>
  ⟨snapshot s.fb, exec_fbSnapshot s, memRead_length s.fb 0 25600, fun _ ha => snapshot_getElem? s.fb ha⟩

/-! What leaves FB as it is. -/

section
variable {s t : State}

theorem afterWrite_fb (s : State) : s.afterWrite.fb = s.fb := by
  rw [afterWrite_eq]
  split <;> rfl

theorem sendRequest_fb (s : State) (h : Handle) (q : Packet) : (s.sendRequest h q).fb = s.fb := by
  cases ha : s.writeAnswer with
  | ok => rw [sendRequest_ok ha, afterWrite_fb, State.tWrite_fb]
  | error => rw [sendRequest_error ha]; rfl

theorem closeHeld_fb (s : State) : s.closeHeld.fb = s.fb := by rw [closeHeld_eq]

theorem execReqReadFb_fb {q : Packet} (h : execReqReadFb q s = .next t) : t.fb = s.fb := by
  unfold execReqReadFb at h
  split at h
  · split at h
    · cases h; exact sendRequest_fb s _ q
    · cases h
  · cases h

theorem execPullStart_fb (h : execPullStart s = .next t) : t.fb = s.fb := by
  unfold execPullStart at h
  split at h <;> cases h
  rfl

theorem execWriteStep_fb (h : execWriteStep s = .next t) : t.fb = s.fb := by
  unfold execWriteStep at h
  split at h
  · cases h; exact sendRequest_fb s _ _
  · cases h

/-- SHUTDOWN leaves the last frame in FB (43_link_control.md R177). -/
theorem execShutdown_fb (h : execShutdown s = .next t) : t.fb = s.fb := by
  unfold execShutdown at h
  split at h
  · cases h
  · cases h; exact closeHeld_fb (s.log (.command .shutdown))

end

/-- Settles O50: the functions and the snapshot write the result alone, PULL_START the position, a write its port, and SHUTDOWN
closes. -/
theorem onlyTheListedOperationsWriteFb : Obligations.OnlyTheListedOperationsWriteFb := by
  intro i s t h hpull hread hrsp hreverse hzero hconnect hopen hfailure hreconnect hfast hslow hreset
  cases i with
  | reqReadFb q => exact execReqReadFb_fb h
  | pullStart => exact execPullStart_fb h
  | writeStep => exact execWriteStep_fb h
  | shutdown => exact execShutdown_fb h
  | checksum16 | buildRequest | checkRequest | extractPayload | fbSnapshot | selectDevice => cases h; rfl
  | rspReadFb r => exact absurd rfl (hrsp r)
  | pullFrame | readStep | rowReverse | fbZero | connect | openAttempt | ioFailure | reconnectAttempt | tickFast | tickSlow
  | reset => contradiction

end Sys2Proof.Machine
end

section
/-! PROOFS. What an operation does to the link (43_link_control.md R170, R178). A run is read through the handles it opens and
closes, and each packet it sends is checked against the handle held (`Adds`). For each shared operation one lemma gives CONN,
HANDLE and these lines at its end, then one for each meaning (`LinkCourse`); O48, O52 and O53 are read off it. -/

namespace Sys2Proof.Machine

/-! The lines of a run that bear on the link. -/

/-- A handle opened, or closed. -/
def Label.movesHandle : Label → Bool
  | .openPath _ (.handle _) | .close _ => true
  | _ => false

/-- A write is the request for one of the 26 chunks on the handle held, and a read is on that handle with the timeout 2000;
nothing is asked of the other lines. -/
def Label.OnHeld (held : Option Handle) : Label → Prop
  | .write h q _ => held = some h ∧ ∃ k, k < 26 ∧ q = requestFor k
  | .read h ms _ => held = some h ∧ ms = 2000
  | _ => True

/-- The run of `t` is that of `s` with lines added that keep to the handle `held`; those that open or close a handle are
`ls`, in order. -/
def State.Adds (s : State) (held : Option Handle) (t : State) (ls : List Label) : Prop :=
  ∃ run, t.trace = s.trace ++ run ∧ run.filter Label.movesHandle = ls ∧ ∀ l ∈ run, l.OnHeld held

section
variable {s t : State} {held : Option Handle} {ls : List Label}

theorem adds_of_trace_eq (ht : t.trace = s.trace) : s.Adds held t [] := ⟨[], by rw [ht, List.append_nil], rfl, nofun⟩

theorem adds_line {l : Label} (ht : t.trace = s.trace ++ [l]) (hl : l.OnHeld held) :
    s.Adds held t ([l].filter Label.movesHandle) :=
  ⟨[l], ht, rfl, fun _ hl' => List.mem_singleton.1 hl' ▸ hl⟩

theorem State.Adds.trans {u : State} {ls' : List Label} (ht : s.Adds held t ls) (hu : t.Adds held u ls') :
    s.Adds held u (ls ++ ls') := by
  obtain ⟨run, htrace, rfl, hrun⟩ := ht
  obtain ⟨run', htrace', rfl, hrun'⟩ := hu
  refine ⟨run ++ run', by rw [htrace', htrace, List.append_assoc], List.filter_append .., fun l hl => ?_⟩
  exact (List.mem_append.1 hl).elim (hrun l) (hrun' l)

/-- The transactions of a pull keep to its handle, and open and close none. -/
theorem adds_of_pullTransactions {h : Handle} {run : List Label} (hheld : held = some h)
    (ht : t.trace = s.trace ++ run) (hrun : ∀ l ∈ run, PullTransaction h l) : s.Adds held t [] := by
  refine ⟨run, ht, List.filter_eq_nil_iff.2 fun l hl => ?_, fun l hl => ?_⟩
  · obtain ⟨k, a, -, rfl⟩ | ⟨a, rfl⟩ := hrun l hl <;> simp [Label.movesHandle]
  · obtain ⟨k, a, hk, rfl⟩ | ⟨a, rfl⟩ := hrun l hl
    · exact ⟨hheld, k, hk, rfl⟩
    · exact ⟨hheld, rfl⟩

theorem State.AdvancesPull.adds (ht : s.AdvancesPull t) : s.Adds s.handle t [] := by
  obtain ⟨h, l, hh, htrace, -, -, hl, -⟩ := ht
  refine adds_of_pullTransactions hh htrace fun l' hl' => ?_
  rw [List.mem_singleton.1 hl']
  obtain ⟨-, -, a, rfl⟩ | ⟨-, a, rfl⟩ := hl
  · exact .inl ⟨_, a, s.k.isLt, rfl⟩
  · exact .inr ⟨a, rfl⟩

theorem pull_adds {h : Handle} (hheld : held = some h) : s.Adds held (s.pull h).2 [] := by
  obtain ⟨run, htrace, -, hrun⟩ := pull_addsAtMost s h
  exact adds_of_pullTransactions hheld htrace hrun

theorem closeRun_filter_movesHandle (o : Option Handle) : (closeRun o).filter Label.movesHandle = closeRun o := by
  cases o <;> rfl

theorem onHeld_of_mem_closeRun {o : Option Handle} {l : Label} (hl : l ∈ closeRun o) : l.OnHeld held := by
  cases o with
  | none => cases hl
  | some h => exact List.mem_singleton.1 hl ▸ trivial

theorem closeHeld_adds (s : State) : s.Adds held s.closeHeld (closeRun s.handle) :=
  ⟨closeRun s.handle, by rw [closeHeld_eq], closeRun_filter_movesHandle s.handle, fun _ hl => onHeld_of_mem_closeRun hl⟩

end

/-! How often a handle is opened and closed. -/

theorem openedCount_filter_movesHandle (h : Handle) (run : List Label) :
    openedCount h (run.filter Label.movesHandle) = openedCount h run := by
  rw [openedCount, openedCount, List.countP_filter]
  refine List.countP_congr fun l _ => ?_
  cases l with
  | openPath p a => cases a <;> simp [Label.movesHandle]
  | _ => simp

theorem closedCount_filter_movesHandle (h : Handle) (run : List Label) :
    closedCount h (run.filter Label.movesHandle) = closedCount h run := by
  rw [closedCount, closedCount, List.countP_filter]
  refine List.countP_congr fun l _ => ?_
  cases l with
  | close h' => simp [Label.movesHandle]
  | _ => simp

@[simp] theorem openedCount_nil (h : Handle) : openedCount h [] = 0 := rfl

@[simp] theorem closedCount_nil (h : Handle) : closedCount h [] = 0 := rfl

@[simp] theorem openedCount_append (h : Handle) (run run' : List Label) :
    openedCount h (run ++ run') = openedCount h run + openedCount h run' := List.countP_append

@[simp] theorem closedCount_append (h : Handle) (run run' : List Label) :
    closedCount h (run ++ run') = closedCount h run + closedCount h run' := List.countP_append

@[simp] theorem openedCount_closeRun (h : Handle) (held : Option Handle) : openedCount h (closeRun held) = 0 := by
  cases held <;> rfl

@[simp] theorem closedCount_closeRun (h : Handle) (held : Option Handle) :
    closedCount h (closeRun held) = if held = some h then 1 else 0 := by
  cases held <;> simp [closeRun, closedCount, List.countP_cons]

@[simp] theorem openedCount_openPath (h h' : Handle) (p : Path) :
    openedCount h [.openPath p (.handle h')] = if some h' = some h then 1 else 0 := by
  simp [openedCount, List.countP_cons]

@[simp] theorem closedCount_openPath (h : Handle) (p : Path) (a : OpenAnswer) : closedCount h [.openPath p a] = 0 := rfl

/-- The counts are those of the lines that move a handle. -/
theorem State.Adds.counts {s t : State} {held : Option Handle} {ls : List Label} (ht : s.Adds held t ls) (h : Handle) :
    openedCount h t.trace = openedCount h s.trace + openedCount h ls ∧
      closedCount h t.trace = closedCount h s.trace + closedCount h ls := by
  obtain ⟨run, htrace, rfl, -⟩ := ht
  rw [htrace, openedCount_append, closedCount_append, openedCount_filter_movesHandle, closedCount_filter_movesHandle]
  exact ⟨rfl, rfl⟩

/-! Where the shared operations leave the link. -/

/-- `t` has this CONN and this HANDLE, and these lines that move a handle were added to the run of `s`. -/
structure State.Course (s : State) (held : Option Handle) (t : State) (c : Conn) (o : Option Handle) (ls : List Label) :
    Prop where
  conn : t.conn = c
  handle : t.handle = o
  adds : s.Adds held t ls

section
variable {s t : State} {held o : Option Handle} {c : Conn} {ls : List Label}

theorem State.Course.setResult (ht : s.Course held t c o ls) (v : Value) : s.Course held (t.setResult v) c o ls :=
  ⟨ht.conn, ht.handle, ht.adds⟩

theorem State.Course.setService (ht : s.Course held t c o ls) (b : Bool) : s.Course held (t.setService b) c o ls :=
  ⟨ht.conn, ht.handle, ht.adds⟩

theorem State.Course.setConn (ht : s.Course held t c o ls) (c' : Conn) : s.Course held (t.setConn c') c' o ls :=
  ⟨rfl, ht.handle, ht.adds⟩

theorem State.Course.trans {u : State} {c' : Conn} {o' : Option Handle} {ls' : List Label}
    (ht : s.Course held t c o ls) (hu : t.Course held u c' o' ls') : s.Course held u c' o' (ls ++ ls') :=
  ⟨hu.conn, hu.handle, ht.adds.trans hu.adds⟩

/-- Nothing but the run, by a command or an event. -/
theorem log_course {l : Label} (hl : l.OnHeld held) :
    s.Course held (s.log l) s.conn s.handle ([l].filter Label.movesHandle) := ⟨rfl, rfl, adds_line rfl hl⟩

/-- An event after the course. -/
theorem State.Course.logEvent {l : Label} (ht : s.Course held t c o ls) (hl : l.isEvent = true) :
    s.Course held (t.log l) c o ls := by
  have hquiet : l.OnHeld held ∧ l.movesHandle = false := by
    cases l with
    | frameReady | connChanged | repaint => exact ⟨trivial, rfl⟩
    | _ => cases hl
  obtain ⟨hheld, hmoves⟩ := hquiet
  exact ⟨ht.conn, ht.handle, by simpa [hmoves] using ht.adds.trans (adds_line rfl hheld)⟩

/-- The accepted command before the course. -/
theorem State.Course.of_command {d : Command} (ht : (s.log (.command d)).Course held t c o ls) : s.Course held t c o ls :=
  (log_course (l := .command d) trivial).trans ht

theorem closeHeld_course (s : State) : s.Course held s.closeHeld s.conn none (closeRun s.handle) :=
  ⟨by rw [closeHeld_eq], by rw [closeHeld_eq], closeHeld_adds s⟩

/-- A failed attempt leaves CONN and no handle; a success leaves Connected and the opened handle (43_link_control.md R172). -/
theorem attempt_course (s : State) (held : Option Handle) :
    (∃ e t, s.attempt = (.failure e, t) ∧ s.Course held t s.conn none (closeRun s.handle)) ∨
    ∃ p h t, s.attempt = (.success, t) ∧
      s.Course held t .connected (some h) (closeRun s.handle ++ [.openPath p (.handle h)]) := by
  obtain ⟨hc, hh, closed⟩ := closeHeld_course (held := held) s
  have searched : s.Adds held s.closeHeld.tEnumerate (closeRun s.handle ++ []) :=
    closed.trans (adds_line (l := .enumerate _ _ _) rfl trivial)
  rw [List.append_nil] at searched
  have opened (p : Path) {a : OpenAnswer} (ha : s.closeHeld.tEnumerate.openAnswer = a) :
      s.Adds held (s.closeHeld.tEnumerate.tOpen p) (closeRun s.handle ++ [Label.openPath p a].filter Label.movesHandle) :=
    searched.trans (adds_line (by rw [State.tOpen_trace, ha]) trivial)
  obtain ⟨-, ha⟩ | ⟨p, -, ⟨herror, ha⟩ | ⟨h, hopened, ha⟩⟩ := attempt_cases s
  · exact .inl ⟨_, _, ha, hc, hh, searched⟩
  · exact .inl ⟨_, _, ha, hc, hh, by simpa [Label.movesHandle] using opened p herror⟩
  · exact .inr ⟨p, h, _, ha, rfl, rfl, opened p hopened⟩

theorem firstConnect_course (s : State) (held : Option Handle) :
    s.Course held s.firstConnect .reconnecting none (closeRun s.handle) ∨
    ∃ p h, s.Course held s.firstConnect .connected (some h) (closeRun s.handle ++ [.openPath p (.handle h)]) := by
  unfold State.firstConnect
  obtain ⟨e, t, ha, ht⟩ | ⟨p, h, t, ha, ht⟩ := attempt_course s held <;> rw [ha]
  · exact .inl ((ht.setConn .reconnecting).logEvent rfl)
  · exact .inr ⟨p, h, ht.logEvent rfl⟩

theorem reconnect_course (s : State) (held : Option Handle) :
    (∃ e t, s.reconnect = (.failure e, t) ∧ s.Course held t s.conn none (closeRun s.handle)) ∨
    ∃ p h t, s.reconnect = (.success, t) ∧
      s.Course held t .connected (some h) (closeRun s.handle ++ [.openPath p (.handle h)]) := by
  unfold State.reconnect
  obtain ⟨e, t, ha, ht⟩ | ⟨p, h, t, ha, ht⟩ := attempt_course s held <;> rw [ha]
  · exact .inl ⟨e, t, rfl, ht⟩
  · exact .inr ⟨p, h, _, rfl, ht.logEvent rfl⟩

theorem reconnectAndReport_course (s : State) (held : Option Handle) :
    s.Course held s.reconnectAndReport s.conn none (closeRun s.handle) ∨
    ∃ p h, s.Course held s.reconnectAndReport .connected (some h) (closeRun s.handle ++ [.openPath p (.handle h)]) := by
  unfold State.reconnectAndReport
  obtain ⟨e, t, hr, ht⟩ | ⟨p, h, t, hr, ht⟩ := reconnect_course s held <;> rw [hr]
  · exact .inl ht
  · exact .inr ⟨p, h, ht.logEvent rfl⟩

/-- Failure entry closes the handle it is given (43_link_control.md R174). -/
theorem ioFailure_course (s : State) (held : Option Handle) (h : Handle) :
    s.Course held (s.ioFailure h) .reconnecting none [.close h] :=
  ⟨rfl, rfl, [.close h, .connChanged .reconnecting], by rw [ioFailure_eq], rfl, by simp [Label.OnHeld]⟩

theorem pull_course {h : Handle} (hheld : held = some h) : s.Course held (s.pull h).2 s.conn s.handle [] :=
  have frame := (pull_transferFrame s h).1
  ⟨frame.conn, frame.handle, pull_adds hheld⟩

/-- A pull keeps its handle, or closes it in failure entry (44_scheduler.md R190). -/
theorem pullAndReport_course {h : Handle} (hheld : held = some h) :
    s.Course held (s.pullAndReport h) s.conn s.handle [] ∨
      s.Course held (s.pullAndReport h) .reconnecting none [.close h] := by
  have ht := pull_course (s := s) hheld
  unfold State.pullAndReport
  generalize s.pull h = p at ht ⊢
  obtain ⟨r, t⟩ := p
  cases r with
  | ok => exact .inl (ht.logEvent rfl)
  | errWrite => exact .inr (ht.trans (ioFailure_course t held h))
  | errRead => exact .inr (ht.trans (ioFailure_course t held h))

end

/-! Where each operation leaves the link. -/

/-- The edges of the state diagram (43_link_control.md R170), each with the operations that take it, and CONN as it was. -/
inductive ConnEdge (i : Instr) : Conn → Conn → Prop
  | stay (c : Conn) : ConnEdge i c c
  | shut (hi : i = .shutdown ∨ i = .reset) (c : Conn) : ConnEdge i c .disconnected
  | fail (hi : i = .tickFast ∨ i = .ioFailure) : ConnEdge i .connected .reconnecting
  | firstFailed (hi : i = .connect) : ConnEdge i .disconnected .reconnecting
  | firstOpened (hi : i = .connect ∨ i = .openAttempt) : ConnEdge i .disconnected .connected
  | reopened (hi : i = .tickSlow ∨ i = .reconnectAttempt ∨ i = .openAttempt) : ConnEdge i .reconnecting .connected

/-- What an operation that completes can do to the link. -/
inductive LinkCourse (i : Instr) (s t : State) : Prop
  /-- The held handle, if one is, stays. -/
  | keeps (ht : s.Course s.handle t s.conn s.handle [])
  /-- The held handle, if one is, is closed. -/
  | closes {c : Conn} (hc : ConnEdge i s.conn c) (ht : s.Course s.handle t c none (closeRun s.handle))
  /-- The held handle, if one is, is closed, and another is opened and held. -/
  | opens {p : Path} {h : Handle} (hc : ConnEdge i s.conn .connected)
      (ht : s.Course s.handle t .connected (some h) (closeRun s.handle ++ [.openPath p (.handle h)]))
  /-- The held handle, if one is, is forgotten (the spec's decision D21; log 23). -/
  | forgets (hi : i = .reset) (ht : s.Course s.handle t .disconnected none [])

section
variable {s t : State} {i : Instr}

theorem execPullFrame_adds (he : execPullFrame s = .next t) : s.Adds s.handle t [] := by
  unfold execPullFrame at he
  split at he
  · next h hph =>
    obtain ⟨-, -, hh⟩ := pullHandle_eq_some_iff.1 hph
    cases he
    exact pull_adds hh
  · cases he

theorem execPullStart_adds (he : execPullStart s = .next t) : s.Adds s.handle t [] := by
  unfold execPullStart at he
  split at he
  · cases he; exact adds_of_trace_eq rfl
  · cases he

/-- The operations outside link control send nothing but what the pull in progress, or the whole pull, sends. -/
theorem exec_adds (he : exec i s = .next t) (hi : ¬ControlsLink i) : s.Adds s.handle t [] := by
  cases i with
  | reqReadFb q => exact (execReqReadFb_advancesPull he).adds
  | rspReadFb r => exact (execRspReadFb_advancesPull he).adds
  | writeStep => exact (execWriteStep_advancesPull he).adds
  | readStep => exact (execReadStep_advancesPull he).adds
  | pullFrame => exact execPullFrame_adds he
  | pullStart => exact execPullStart_adds he
  | checksum16 | buildRequest | checkRequest | extractPayload | rowReverse | fbZero | fbSnapshot | selectDevice =>
    cases he; exact adds_of_trace_eq rfl
  | connect | openAttempt | ioFailure | reconnectAttempt | shutdown | tickFast | tickSlow | reset =>
    simp [ControlsLink] at hi

theorem execConnect_course (he : execConnect s = .next t) : LinkCourse .connect s t := by
  unfold execConnect at he
  split at he
  · cases he
  · split at he
    · next hc =>
      cases he
      obtain ht | ⟨p, h, ht⟩ := firstConnect_course (s.log (.command .connect)) s.handle
      · exact .closes (hc ▸ .firstFailed rfl) (ht.setResult _).of_command
      · exact .opens (hc ▸ .firstOpened (.inl rfl)) (ht.setResult _).of_command
    · cases he
    · cases he

theorem execOpenAttempt_course (he : execOpenAttempt s = .next t) : LinkCourse .openAttempt s t := by
  have attempted (hc : ConnEdge .openAttempt s.conn .connected) :
      LinkCourse .openAttempt s (s.attempt.2.setResult (.attempted s.attempt.1)) := by
    obtain ⟨e, u, ha, hu⟩ | ⟨p, h, u, ha, hu⟩ := attempt_course s s.handle <;> rw [ha]
    · exact .closes (.stay _) (hu.setResult _)
    · exact .opens hc (hu.setResult _)
  unfold execOpenAttempt at he
  split at he
  · cases he
  · split at he
    · cases he
    · next hc => cases he; exact attempted (hc ▸ .firstOpened (.inr rfl))
    · next hc => cases he; exact attempted (hc ▸ .reopened (.inr (.inr rfl)))

theorem execIoFailure_course (he : execIoFailure s = .next t) : LinkCourse .ioFailure s t := by
  unfold execIoFailure at he
  split at he
  · next h hf =>
    obtain ⟨hc, -, hh⟩ := failingHandle_eq_some_iff.1 hf
    have ht := ioFailure_course s s.handle h
    have hclose : [Label.close h] = closeRun s.handle := by rw [hh]; rfl
    cases he
    exact .closes (hc ▸ .fail (.inr rfl)) (hclose ▸ ht.setResult _)
  · cases he

theorem execReconnectAttempt_course (he : execReconnectAttempt s = .next t) : LinkCourse .reconnectAttempt s t := by
  unfold execReconnectAttempt at he
  split at he
  · next hpre =>
    obtain ⟨hc, -⟩ := hpre
    cases he
    obtain ⟨e, u, hr, hu⟩ | ⟨p, h, u, hr, hu⟩ := reconnect_course s s.handle <;> rw [hr]
    · exact .closes (.stay _) (hu.setResult _)
    · exact .opens (hc ▸ .reopened (.inr (.inl rfl))) (hu.setResult _)
  · cases he

theorem execShutdown_course (he : execShutdown s = .next t) : LinkCourse .shutdown s t := by
  unfold execShutdown at he
  split at he
  · cases he
  · have ht := closeHeld_course (held := s.handle) (s.log (.command .shutdown))
    cases he
    exact .closes (.shut (.inl rfl) _) (((ht.setConn .disconnected).setService false).setResult _).of_command

theorem execTickFast_course (he : execTickFast s = .next t) : LinkCourse .tickFast s t := by
  have repainted : LinkCourse .tickFast s (((s.log (.command .tickFast)).log .repaint).setResult .nothing) :=
    .keeps ((log_course (l := .repaint) trivial).setResult _).of_command
  unfold execTickFast at he
  split at he
  · cases he
  · split at he
    · next hc =>
      split at he
      · next h hh =>
        cases he
        obtain ht | ht := pullAndReport_course (s := s.log (.command .tickFast)) hh
        · exact .keeps (ht.setResult _).of_command
        · have hclose : [Label.close h] = closeRun s.handle := by rw [hh]; rfl
          exact .closes (hc ▸ .fail (.inl rfl)) (hclose ▸ (ht.setResult _).of_command)
      · cases he
    · cases he; exact repainted
    · cases he; exact repainted

theorem execTickSlow_course (he : execTickSlow s = .next t) : LinkCourse .tickSlow s t := by
  have rested : LinkCourse .tickSlow s ((s.log (.command .tickSlow)).setResult .nothing) :=
    .keeps ((log_course (l := .command .tickSlow) trivial).setResult _)
  unfold execTickSlow at he
  split at he
  · cases he
  · split at he
    · next hc =>
      cases he
      obtain ht | ⟨p, h, ht⟩ := reconnectAndReport_course (s.log (.command .tickSlow)) s.handle
      · exact .closes (.stay _) (ht.setResult _).of_command
      · exact .opens (hc ▸ .reopened (.inl rfl)) (ht.setResult _).of_command
    · cases he; exact rested
    · cases he; exact rested

theorem execReset_course (he : execReset s = .next t) : LinkCourse .reset s t := by
  cases he
  exact .forgets rfl ⟨rfl, rfl, adds_line (l := .command .reset) rfl trivial⟩

/-- Whatever operation completes, it leaves the link along one of the courses. -/
theorem exec_course (he : exec i s = .next t) : LinkCourse i s t := by
  by_cases hi : ControlsLink i
  · obtain rfl | rfl | rfl | rfl | rfl | rfl | rfl | rfl := hi
    · exact execConnect_course he
    · exact execOpenAttempt_course he
    · exact execIoFailure_course he
    · exact execReconnectAttempt_course he
    · exact execShutdown_course he
    · exact execTickFast_course he
    · exact execTickSlow_course he
    · exact execReset_course he
  · have frame := exec_transferFrame he hi
    exact .keeps ⟨frame.conn, frame.handle, exec_adds he hi⟩

end

/-! The statements about every operation. -/

section
variable {s t : State} {i : Instr}

/-- A course keeps the balance: a handle is closed before HANDLE lets go of it, and held when it was opened. -/
theorem LinkCourse.balanced (hcourse : LinkCourse i s t) (hs : s.HandlesBalanced) (hreset : i = .reset → s.handle = none) :
    t.HandlesBalanced := by
  intro h
  have hbal := hs h
  cases hcourse with
  | keeps ht => simp [ht.adds.counts h, ht.handle, hbal]
  | closes _ ht => simp [ht.adds.counts h, ht.handle, hbal]
  | opens _ ht => simp [ht.adds.counts h, ht.handle, hbal]
  | forgets hi ht => simp [ht.adds.counts h, ht.handle, hbal, hreset hi]

theorem exec_balanced (hs : s.HandlesBalanced) (hreset : i = .reset → s.handle = none) (he : exec i s = .next t) :
    t.HandlesBalanced := (exec_course he).balanced hs hreset

theorem LinkCourse.connEdge (hcourse : LinkCourse i s t) : ConnEdge i s.conn t.conn := by
  cases hcourse with
  | keeps ht => exact ht.conn ▸ .stay _
  | closes hc ht => exact ht.conn ▸ hc
  | opens hc ht => exact ht.conn ▸ hc
  | forgets hi ht => exact ht.conn ▸ .shut (.inr hi) _

theorem LinkCourse.exists_adds (hcourse : LinkCourse i s t) : ∃ ls, s.Adds s.handle t ls := by
  cases hcourse with
  | keeps ht => exact ⟨_, ht.adds⟩
  | closes _ ht => exact ⟨_, ht.adds⟩
  | opens _ ht => exact ⟨_, ht.adds⟩
  | forgets _ ht => exact ⟨_, ht.adds⟩

end

/-- Settles O47: the run is empty. -/
theorem resetHandlesBalanced : Obligations.ResetHandlesBalanced := fun _ => rfl

/-- Settles O48: what runs is one operation, along one of the courses, or nothing; a RESET was presented, and finds no
handle. -/
theorem stepKeepsHandlesBalanced : Obligations.StepKeepsHandlesBalanced := by
  intro s t hs hreset hstep
  obtain ⟨p, rest, i, hport, hd, -, -, he⟩ | ⟨-, -, he⟩ | ⟨-, -, he⟩ | ⟨-, -, rfl⟩ := step_cases hstep
  · exact exec_balanced (s := s.setPort rest) hs (fun hi => hreset (hi ▸ presented_of_port hport hd)) he
  · exact exec_balanced (i := .writeStep) hs nofun he
  · exact exec_balanced (i := .readStep) hs nofun he
  · exact hs

/-- Settles O52: an edge that moves CONN is one of the diagram, by its target. -/
theorem connMovesAlongTheDiagram : Obligations.ConnMovesAlongTheDiagram := by
  intro i s t he hne
  have hedge := (exec_course he).connEdge
  generalize s.conn = c, t.conn = d at hedge hne
  cases hedge with
  | stay => exact absurd rfl hne
  | shut hi => exact ⟨fun _ => hi, nofun, nofun⟩
  | fail hi => exact ⟨nofun, fun _ => .inl ⟨rfl, hi⟩, nofun⟩
  | firstFailed hi => exact ⟨nofun, fun _ => .inr ⟨rfl, hi⟩, nofun⟩
  | firstOpened hi => exact ⟨nofun, nofun, fun _ => .inl ⟨rfl, hi⟩⟩
  | reopened hi => exact ⟨nofun, nofun, fun _ => .inr ⟨rfl, hi⟩⟩

/-- Settles O53: on every course the added writes and reads keep to the handle held before. -/
theorem onlyChunkRequestsGoOutOnTheHeldHandle : Obligations.OnlyChunkRequestsGoOutOnTheHeldHandle := by
  intro i s t he
  obtain ⟨_, run, htrace, -, hrun⟩ := (exec_course he).exists_adds
  exact ⟨run, htrace, fun _ _ _ hl => hrun _ hl, fun _ _ _ hl => hrun _ hl⟩

end Sys2Proof.Machine
end

section
/-! PROOFS. The open attempt by its answers (43_link_control.md R171, R172), and slow ticks whose attempts fail (R176, R179). -/

namespace Sys2Proof.Machine

variable {s : State}

/-! SELECT_DEVICE. -/

/-- Descriptors of another usage page are passed over. -/
theorem selectDevice_append {u : Nat} {before : List Descriptor} (hb : ∀ e ∈ before, e.usagePage ≠ u)
    (ds : List Descriptor) : selectDevice u (before ++ ds) = selectDevice u ds := by
  induction before with
  | nil => rfl
  | cons e before ih =>
    rw [List.cons_append, selectDevice, if_neg (hb e List.mem_cons_self)]
    exact ih fun e' he' => hb e' (List.mem_cons_of_mem e he')

theorem selectDevice_eq_none {u : Nat} {ds : List Descriptor} (h : ∀ d ∈ ds, d.usagePage ≠ u) : selectDevice u ds = none := by
  rw [← List.append_nil ds, selectDevice_append h, selectDevice]

theorem selectDevice_cons_match {u : Nat} {d : Descriptor} (hd : d.usagePage = u) (ds : List Descriptor) :
    selectDevice u (d :: ds) = some d.path := if_pos hd

theorem exec_selectDevice (ds : List Descriptor) (s : State) :
    exec (.selectDevice ds) s = .next (s.setResult (.path (selectDevice Config.params.usagePage ds))) := rfl

/-- Settles O29: what stands before the first match is passed over. -/
theorem selectDevicePicksTheFirstMatch : Obligations.SelectDevicePicksTheFirstMatch := by
  refine fun ds s => ⟨fun hnone => ?_, fun before d after hds hbefore hd => ?_⟩
  · rw [exec_selectDevice, selectDevice_eq_none hnone]
  · rw [exec_selectDevice, hds, selectDevice_append hbefore, selectDevice_cons_match hd]

/-! The open attempt, by its answers. -/

theorem closeHeld_enumAnswer (s : State) : s.closeHeld.enumAnswer = s.enumAnswer := by rw [closeHeld_eq]; rfl

theorem closeHeld_tEnumerate_openAnswer (s : State) :
    s.closeHeld.tEnumerate.openAnswer = s.tEnumerate.openAnswer := by rw [closeHeld_eq]; rfl

theorem closeHeld_tEnumerate_eq (s : State) :
    s.closeHeld.tEnumerate =
      { s with
        handle := none
        enumerations := s.enumerations.tail
        asked := s.asked + 1
        trace := s.trace ++ closeRun s.handle ++
          [.enumerate Config.params.vendorId Config.params.productId s.enumAnswer] } := by
  rw [closeHeld_eq]; rfl

theorem closeHeld_tEnumerate_tOpen_eq {a : OpenAnswer} (ha : s.tEnumerate.openAnswer = a) (path : Path) :
    s.closeHeld.tEnumerate.tOpen path =
      { s with
        handle := none
        enumerations := s.enumerations.tail
        opens := s.opens.tail
        asked := s.asked + 2
        trace := s.trace ++ closeRun s.handle ++
          [.enumerate Config.params.vendorId Config.params.productId s.enumAnswer, .openPath path a] } := by
  rw [State.tOpen, closeHeld_tEnumerate_openAnswer, ha, closeHeld_tEnumerate_eq]
  simp

theorem attempt_of_no_match (hsel : selectDevice Config.params.usagePage s.enumAnswer = none) :
    s.attempt = (.failure .enumerationFailed, s.closeHeld.tEnumerate) := by
  simp only [State.attempt, State.searchAndOpen, closeHeld_enumAnswer, hsel]

section
variable {path : Path} (hsel : selectDevice Config.params.usagePage s.enumAnswer = some path)
include hsel

theorem attempt_of_open_error (ha : s.tEnumerate.openAnswer = .error) :
    s.attempt = (.failure .openFailed, s.closeHeld.tEnumerate.tOpen path) := by
  simp only [State.attempt, State.searchAndOpen, State.openSelected, closeHeld_enumAnswer, closeHeld_tEnumerate_openAnswer,
    hsel, ha]

theorem attempt_of_opened {h : Handle} (ha : s.tEnumerate.openAnswer = .handle h) :
    s.attempt = (.success, (s.closeHeld.tEnumerate.tOpen path).attach h) := by
  simp only [State.attempt, State.searchAndOpen, State.openSelected, closeHeld_enumAnswer, closeHeld_tEnumerate_openAnswer,
    hsel, ha]

end

theorem execOpenAttempt_eq (hv : s.inService = true) (hp : s.phase = .idle) (hc : s.conn ≠ .connected) :
    exec .openAttempt s = .next (s.attempt.2.setResult (.attempted s.attempt.1)) := by
  simp only [exec, execOpenAttempt, turnedAway_eq_none_iff.2 ⟨hv, hp⟩]
  cases hconn : s.conn with
  | connected => exact absurd hconn hc
  | disconnected | reconnecting => rfl

/-- Settles O30: the lines of the defensive close are `closeRun`, and the answers select the outcome. -/
theorem openAttemptHasThreeOutcomes : Obligations.OpenAttemptHasThreeOutcomes := by
  intro s hv hp hc
  have hexec := execOpenAttempt_eq hv hp hc
  refine ⟨closeRun s.handle, fun hh => by rw [hh]; rfl, fun h hh => by rw [hh]; rfl, fun hsel => ?_,
    fun path hsel => ⟨fun ha => ?_, fun h ha => ?_⟩⟩
  · rw [hexec, attempt_of_no_match hsel, closeHeld_tEnumerate_eq]
    rfl
  · rw [hexec, attempt_of_open_error hsel ha, closeHeld_tEnumerate_tOpen_eq ha]
    rfl
  · rw [hexec, attempt_of_opened hsel ha, closeHeld_tEnumerate_tOpen_eq ha]
    rfl

/-! Attempts that fail. -/

/-- After a failed attempt with no handle held: the registers are as they were, no handle was opened or closed, and of the
answers of `T.open` at most one was used. -/
structure State.RetriedInVain (s t : State) : Prop where
  block : t.toBlock = s.toBlock
  port : t.port = s.port
  inService : t.inService = s.inService
  opens : t.opens = s.opens ∨ t.opens = s.opens.tail
  adds : s.Adds none t []

theorem attempt_in_vain {os : List OpenAnswer} (hh : s.handle = none) (ho : s.opens = .error :: os) :
    ∃ e t, s.attempt = (.failure e, t) ∧ s.RetriedInVain t := by
  have herror : s.tEnumerate.openAnswer = .error := State.openAnswer_cons ho
  have searched : s.Adds none s.tEnumerate [] := adds_line (l := .enumerate _ _ _) rfl trivial
  have outcomes := attempt_cases s
  rw [closeHeld_of_handle_eq_none hh] at outcomes
  obtain ⟨-, ha⟩ | ⟨path, -, ⟨-, ha⟩ | ⟨h, hopened, -⟩⟩ := outcomes
  · exact ⟨_, _, ha, rfl, rfl, rfl, .inl rfl, searched⟩
  · have refused : s.tEnumerate.Adds none (s.tEnumerate.tOpen path) [] :=
      adds_line (l := .openPath path .error) (by rw [State.tOpen_trace, herror]) trivial
    exact ⟨_, _, ha, rfl, rfl, rfl, .inr rfl, searched.trans refused⟩
  · exact absurd (herror.symm.trans hopened) nofun

/-- A slow tick whose attempt fails reports nothing (44_scheduler.md R191). -/
theorem exec_tickSlow_in_vain {os : List OpenAnswer} (hv : s.inService = true) (hp : s.phase = .idle)
    (hc : s.conn = .reconnecting) (hh : s.handle = none) (ho : s.opens = .error :: os) :
    ∃ t, exec .tickSlow s = .next t ∧ s.RetriedInVain t := by
  obtain ⟨e, t, ha, ht⟩ := attempt_in_vain (s := s.log (.command .tickSlow)) hh ho
  have hexec : exec .tickSlow s = .next (t.setResult .nothing) := by
    simp only [exec, execTickSlow, turnedAway_eq_none_iff.2 ⟨hv, hp⟩, hc, State.reconnectAndReport, State.reconnect, ha]
  have accepted : s.Adds none (s.log (.command .tickSlow)) [] := adds_line (l := .command .tickSlow) rfl trivial
  exact ⟨_, hexec, ht.block, ht.port, ht.inService, ht.opens, accepted.trans ht.adds⟩

theorem decode_encode_tickSlow : decode (encode .tickSlow) = .ok .tickSlow := by
  have hdecode := encodedOperationDecodes .tickSlow 0 rfl
  rwa [List.replicate_zero, List.append_nil] at hdecode

theorem step_tickSlow {rest : List Presented} (hp : s.phase = .idle) (hport : s.port = ⟨.host, encode .tickSlow⟩ :: rest) :
    step s = exec .tickSlow (s.setPort rest) :=
  step_of_not_barred hport decode_encode_tickSlow (barred_eq_none_iff.2 ⟨fun _ => rfl, .inl hp⟩)

/-- Settles O40, by induction on the number of ticks: each leaves the registers, and enough failures to come for the rest. -/
theorem failedRetriesAccumulateNothing : Obligations.FailedRetriesAccumulateNothing := by
  intro n
  induction n with
  | zero => exact fun s frames os hv _ _ _ hport _ => ⟨s, rfl, rfl, hport, hv, fun _ => ⟨rfl, rfl⟩⟩
  | succ n ih =>
    intro s frames os hv hp hc hh hport ho
    rw [List.replicate_succ, List.cons_append] at hport
    have hstep := step_tickSlow hp hport
    obtain ⟨t, hexec, ht⟩ := exec_tickSlow_in_vain (s := s.setPort (List.replicate n _ ++ frames)) hv hp hc hh ho
    obtain ⟨os', hopens⟩ : ∃ os', t.opens = List.replicate n .error ++ os' := by
      obtain hkept | hused := ht.opens
      · exact ⟨.error :: os, by rw [hkept, State.setPort_opens, ho, List.replicate_succ', List.append_assoc]; rfl⟩
      · exact ⟨os, by rw [hused, State.setPort_opens, ho]; rfl⟩
    obtain ⟨u, hrun, hblock, hframes, hservice, hcounts⟩ := ih t frames os' (ht.inService.trans hv)
      ((congrArg Block.phase ht.block).trans hp) ((congrArg Block.conn ht.block).trans hc)
      ((congrArg Block.handle ht.block).trans hh) ht.port hopens
    refine ⟨u, (run_succ_of_step core (hstep.trans hexec) n).trans hrun, hblock.trans ht.block, hframes, hservice,
      fun h => ?_⟩
    obtain ⟨hopened, hclosed⟩ := hcounts h
    obtain ⟨hopened', hclosed'⟩ := ht.adds.counts h
    exact ⟨hopened.trans hopened', hclosed.trans hclosed'⟩

end Sys2Proof.Machine
end

section
/-! PROOFS. The ticks (44_scheduler.md R190, R191, R195): one equation for each place of CONN, and what follows the pull and the
attempt that they make. -/

namespace Sys2Proof.Machine

section
variable {s t : State}

/-! TICK_FAST. -/

theorem exec_tickFast_of_not_connected (hv : s.inService = true) (hp : s.phase = .idle) (hc : s.conn ≠ .connected) :
    exec .tickFast s = .next (((s.log (.command .tickFast)).log .repaint).setResult .nothing) := by
  simp only [exec, execTickFast, turnedAway_eq_none_iff.2 ⟨hv, hp⟩]
  cases hconn : s.conn with
  | connected => exact absurd hconn hc
  | disconnected | reconnecting => rfl

/-- Failure entry follows whichever error ended the pull (44_scheduler.md R190). -/
theorem pullAndReport_of_ne_ok {h : Handle} {r : PullResult} (ht : s.pull h = (r, t)) (hr : r ≠ .ok) :
    s.pullAndReport h = t.ioFailure h := by
  cases r with
  | ok => exact absurd rfl hr
  | errWrite | errRead => simp only [State.pullAndReport, ht]

/-! TICK_SLOW. -/

theorem exec_tickSlow_of_not_reconnecting (hv : s.inService = true) (hp : s.phase = .idle) (hc : s.conn ≠ .reconnecting) :
    exec .tickSlow s = .next ((s.log (.command .tickSlow)).setResult .nothing) := by
  simp only [exec, execTickSlow, turnedAway_eq_none_iff.2 ⟨hv, hp⟩]
  cases hconn : s.conn with
  | reconnecting => exact absurd hconn hc
  | connected | disconnected => rfl

theorem exec_tickSlow_of_reconnecting (hv : s.inService = true) (hp : s.phase = .idle) (hc : s.conn = .reconnecting) :
    exec .tickSlow s = .next ((s.log (.command .tickSlow)).reconnectAndReport.setResult .nothing) := by
  simp only [exec, execTickSlow, turnedAway_eq_none_iff.2 ⟨hv, hp⟩, hc]

/-- A failed attempt is reported by nothing (43_link_control.md R175). -/
theorem reconnectAndReport_of_failure {e : ErrorKind} (ha : s.attempt = (.failure e, t)) : s.reconnectAndReport = t := by
  simp only [State.reconnectAndReport, State.reconnect, ha]

/-- A success is reported by CONN_CHANGED and then by the frame (44_scheduler.md R191; the spec's decision D12). -/
theorem reconnectAndReport_of_success (ha : s.attempt = (.success, t)) :
    s.reconnectAndReport = (t.log (.connChanged .connected)).log (.frameReady (snapshot t.fb)) := by
  simp only [State.reconnectAndReport, State.reconnect, ha, State.log_fb]

theorem attach_fb (s : State) (h : Handle) : (s.attach h).fb = zeroedFb := rfl

theorem attach_trace (s : State) (h : Handle) : (s.attach h).trace = s.trace := rfl

/-- The two transactions of an attempt that finds a device, where no handle is to be closed (43_link_control.md R172). -/
theorem tEnumerate_tOpen_eq {a : OpenAnswer} (ha : s.tEnumerate.openAnswer = a) (path : Path) :
    s.tEnumerate.tOpen path =
      { s with
        enumerations := s.enumerations.tail
        opens := s.opens.tail
        asked := s.asked + 2
        trace := s.trace ++
          [.enumerate Config.params.vendorId Config.params.productId s.enumAnswer, .openPath path a] } := by
  rw [State.tOpen, ha]
  simp [State.tEnumerate]

theorem snapshot_zeroedFb : snapshot zeroedFb = List.replicate 25600 0#8 := by
  simp only [snapshot, zeroedFb, memRead_eq_map, readByte_nil, List.map_const', List.length_range]

end

/-- Settles O35. -/
theorem tickFastRepaintsWhenNotConnected : Obligations.TickFastRepaintsWhenNotConnected := by
  intro s hv hp hc
  rw [exec_tickFast_of_not_connected hv hp hc]
  simp only [State.log, State.setResult, List.append_assoc, List.cons_append, List.nil_append]

/-- Settles O38. -/
theorem tickSlowDoesNothingWhenNotReconnecting : Obligations.TickSlowDoesNothingWhenNotReconnecting := fun _ =>
  exec_tickSlow_of_not_reconnecting

/-- Settles O39: no handle is held, so that the attempt after the line of the command closes none, and its answers select the
outcome (43_link_control.md R172). -/
theorem tickSlowReconnects : Obligations.TickSlowReconnects := by
  intro s hv hp hc hh
  have hexec := exec_tickSlow_of_reconnecting hv hp hc
  have hclosed : (s.log (.command .tickSlow)).closeHeld = s.log (.command .tickSlow) := closeHeld_of_handle_eq_none hh
  refine ⟨fun hsel => ?_, fun path hsel => ⟨fun ha => ?_, fun h ha => ?_⟩⟩
  · have hattempt := attempt_of_no_match (s := s.log (.command .tickSlow)) hsel
    rw [hexec, reconnectAndReport_of_failure hattempt, hclosed]
    simp only [State.tEnumerate, State.log_trace, List.append_assoc]
    rfl
  · have hattempt := attempt_of_open_error (s := s.log (.command .tickSlow)) hsel ha
    have hopened := tEnumerate_tOpen_eq (s := s.log (.command .tickSlow)) ha path
    rw [hexec, reconnectAndReport_of_failure hattempt, hclosed, hopened]
    simp only [State.log_trace, List.append_assoc]
    rfl
  · have hattempt := attempt_of_opened (s := s.log (.command .tickSlow)) hsel ha
    have hopened := tEnumerate_tOpen_eq (s := s.log (.command .tickSlow)) ha path
    rw [hexec, reconnectAndReport_of_success hattempt, attach_fb, snapshot_zeroedFb, hclosed, hopened]
    simp only [State.log, attach_trace, List.append_assoc]
    rfl

/-- Settles O36: the pull after the line of the command is the one PULL_FRAME makes there, with the frame of every pull
(`pull_frame`), and its result selects what the tick adds. -/
theorem tickFastWhenConnectedEnds : Obligations.TickFastWhenConnectedEnds := by
  intro s h hv hp hc hh
  have htick := execTickFast_eq hv hc hh hp
  have hframe := execPullFrame_eq (s := s.log (.command .tickFast)) hc hh hp
  obtain ⟨m, ws, rs, n, _, hu, -, -⟩ := pull_frame h (s.log (.command .tickFast))
  obtain ⟨run, htrace, -, hrun⟩ := pull_addsAtMost (s.log (.command .tickFast)) h
  rcases hpull : (s.log (.command .tickFast)).pull h with ⟨r, u⟩
  rw [hpull] at hframe hu htrace
  replace htrace : u.trace = s.trace ++ .command .tickFast :: run := htrace.trans (List.append_assoc ..)
  subst hu
  by_cases hr : r = .ok
  · subst hr
    rw [pullAndReport_ok hpull] at htick
    exact ⟨_, _, .ok, run, htick, hframe, rfl, htrace, rfl, rfl, hv, rfl, rfl, rfl, rfl, hrun,
      .inl ⟨rfl, hc, hh, rfl⟩⟩
  · rw [pullAndReport_of_ne_ok hpull hr, ioFailure_eq] at htick
    exact ⟨_, _, r, run, htick, hframe, rfl, htrace, rfl, rfl, hv, rfl, rfl, rfl, rfl, hrun, .inr ⟨hr, rfl⟩⟩

end Sys2Proof.Machine
end

section
/-! PROOFS. What stands between commands (44_scheduler.md R192; the spec's decision D7). A command accepted there leaves the
position (Idle, 0) and the operations still to be presented: link control does not write the position, and a pull ends at
(Idle, 0) (41_frame_transfer.md R141). -/

namespace Sys2Proof.Machine

/-- Between commands, with the operations `ps` still to be presented. -/
structure State.BetweenCommands (s : State) (ps : List Presented) : Prop where
  phase : s.phase = .idle
  k : s.k = 0
  port : s.port = ps

section
variable {s t : State} {ps : List Presented}

/-! What the shared operations keep. -/

/-- An update of other registers and ports. -/
theorem State.BetweenCommands.of_eq (hs : s.BetweenCommands ps) (hp : t.phase = s.phase) (hk : t.k = s.k)
    (hport : t.port = s.port) : t.BetweenCommands ps :=
  ⟨hp.trans hs.phase, hk.trans hs.k, hport.trans hs.port⟩

theorem State.BetweenCommands.log (hs : s.BetweenCommands ps) (l : Label) : (s.log l).BetweenCommands ps :=
  hs.of_eq rfl rfl rfl

theorem State.BetweenCommands.setResult (hs : s.BetweenCommands ps) (v : Value) : (s.setResult v).BetweenCommands ps :=
  hs.of_eq rfl rfl rfl

theorem State.BetweenCommands.setConn (hs : s.BetweenCommands ps) (c : Conn) : (s.setConn c).BetweenCommands ps :=
  hs.of_eq rfl rfl rfl

theorem State.BetweenCommands.closeHeld (hs : s.BetweenCommands ps) : s.closeHeld.BetweenCommands ps := by
  rw [closeHeld_eq]
  exact hs.of_eq rfl rfl rfl

theorem State.BetweenCommands.attempt (hs : s.BetweenCommands ps) : s.attempt.2.BetweenCommands ps := by
  obtain ⟨-, ha⟩ | ⟨p, -, ⟨-, ha⟩ | ⟨h, -, ha⟩⟩ := attempt_cases s <;> rw [ha] <;> exact hs.closeHeld.of_eq rfl rfl rfl

theorem State.BetweenCommands.firstConnect (hs : s.BetweenCommands ps) : s.firstConnect.BetweenCommands ps := by
  have ht := hs.attempt
  unfold State.firstConnect
  obtain ⟨t, ha, -⟩ | ⟨e, t, ha⟩ := attempt_success_or_failure s <;> rw [ha] at ht ⊢
  · exact ht.log _
  · exact (ht.setConn .reconnecting).log _

theorem State.BetweenCommands.reconnectAndReport (hs : s.BetweenCommands ps) :
    s.reconnectAndReport.BetweenCommands ps := by
  have ht := hs.attempt
  obtain ⟨t, ha, -⟩ | ⟨e, t, ha⟩ := attempt_success_or_failure s <;> rw [ha] at ht
  · rw [reconnectAndReport_of_success ha]
    exact (ht.log _).log _
  · rwa [reconnectAndReport_of_failure ha]

theorem State.BetweenCommands.ioFailure (hs : s.BetweenCommands ps) (h : Handle) : (s.ioFailure h).BetweenCommands ps := by
  rw [ioFailure_eq]
  exact hs.of_eq rfl rfl rfl

theorem pull_betweenCommands (h : Handle) (hport : s.port = ps) : (s.pull h).2.BetweenCommands ps := by
  obtain ⟨m, ws, rs, n, run, hpull, -, -⟩ := pull_frame h s
  rw [hpull]
  exact ⟨rfl, rfl, hport⟩

theorem State.BetweenCommands.pullAndReport (hs : s.BetweenCommands ps) (h : Handle) :
    (s.pullAndReport h).BetweenCommands ps := by
  have ht := pull_betweenCommands h hs.port
  rcases hpull : s.pull h with ⟨r, t⟩
  rw [hpull] at ht
  by_cases hr : r = .ok
  · rw [pullAndReport_ok (hr ▸ hpull)]
    exact ht.log _
  · rw [pullAndReport_of_ne_ok hpull hr]
    exact ht.ioFailure h

/-! The five commands. -/

theorem execConnect_betweenCommands (hs : s.BetweenCommands ps) (he : execConnect s = .next t) : t.BetweenCommands ps := by
  unfold execConnect at he
  split at he
  · cases he
  · split at he <;> cases he
    exact (hs.log _).firstConnect.setResult _

theorem execShutdown_betweenCommands (hs : s.BetweenCommands ps) (he : execShutdown s = .next t) : t.BetweenCommands ps := by
  unfold execShutdown at he
  split at he <;> cases he
  exact (hs.log (.command .shutdown)).closeHeld.of_eq rfl rfl rfl

theorem execTickFast_betweenCommands (hs : s.BetweenCommands ps) (he : execTickFast s = .next t) : t.BetweenCommands ps := by
  have accepted := hs.log (.command .tickFast)
  unfold execTickFast at he
  split at he
  · cases he
  · split at he
    · split at he <;> cases he
      exact (accepted.pullAndReport _).setResult _
    · cases he; exact (accepted.log _).setResult _
    · cases he; exact (accepted.log _).setResult _

theorem execTickSlow_betweenCommands (hs : s.BetweenCommands ps) (he : execTickSlow s = .next t) : t.BetweenCommands ps := by
  have accepted := hs.log (.command .tickSlow)
  unfold execTickSlow at he
  split at he
  · cases he
  · split at he <;> cases he
    · exact accepted.reconnectAndReport.setResult _
    · exact accepted.setResult _
    · exact accepted.setResult _

theorem execReset_betweenCommands (hport : s.port = ps) (he : execReset s = .next t) : t.BetweenCommands ps := by
  cases he
  exact ⟨rfl, rfl, hport⟩

end

/-- Settles O58: a step of a machine that only the host speaks to, between commands, takes one of the five commands from the
port or leaves the machine (O56), and each of the five ends between commands with the rest of the port. -/
theorem hostRunsStayBetweenCommands : Obligations.HostRunsStayBetweenCommands := by
  intro s t hhost hp hk hstep
  obtain ⟨-, rfl⟩ | ⟨p, rest, i, hport, -, he, hi⟩ := onlyTheFiveCommandsComeFromOutside s t hhost hp hstep
  · exact ⟨hhost, hp, hk⟩
  · have hs : (s.setPort rest).BetweenCommands rest := ⟨hp, hk, rfl⟩
    have ht : t.BetweenCommands rest := by
      obtain rfl | rfl | rfl | rfl | rfl := hi
      · exact execReset_betweenCommands rfl he
      · exact execConnect_betweenCommands hs he
      · exact execTickFast_betweenCommands hs he
      · exact execTickSlow_betweenCommands hs he
      · exact execShutdown_betweenCommands hs he
    exact ⟨fun q hq => hhost q (by rw [hport]; exact List.mem_cons_of_mem p (ht.port ▸ hq)), ht.phase, ht.k⟩

end Sys2Proof.Machine
end

section
/-! PROOFS. The internal operations outside their Precondition lines (41_frame_transfer.md R132, R133, R136, 43_link_control.md
R174, R175; log 17 to log 19). -/

namespace Sys2Proof.Machine

section
variable {s : State}

/-! Guards that answer no handle. -/

theorem pullHandle_eq_none_of_not (hpre : ¬(s.conn = .connected ∧ s.phase = .idle ∧ s.handle.isSome = true)) :
    s.pullHandle = none :=
  Option.eq_none_iff_forall_ne_some.2 fun _ hh =>
    have ⟨hc, hp, hs⟩ := pullHandle_eq_some_iff.1 hh
    hpre ⟨hc, hp, Option.isSome_of_eq_some hs⟩

/-- IO_FAILURE and a pull ask for the same registers (41_frame_transfer.md R132, 43_link_control.md R174). -/
theorem failingHandle_eq_pullHandle (s : State) : s.failingHandle = s.pullHandle := rfl

theorem phaseHandle_eq_none_of_not {p : Phase} (hpre : ¬(s.phase = p ∧ s.handle.isSome = true)) : s.phaseHandle p = none :=
  Option.eq_none_iff_forall_ne_some.2 fun _ hh =>
    have ⟨hp, hs⟩ := phaseHandle_eq_some_iff.1 hh
    hpre ⟨hp, Option.isSome_of_eq_some hs⟩

end

/-- Settles O44: the guard of each operation answers no handle, or selects the branch of the refusal. -/
theorem unmetPreconditionsStop : Obligations.UnmetPreconditionsStop := by
  refine fun s => ⟨fun hpre => ?_, fun hpre => ?_, fun hpre => ?_, fun hpre => ?_, fun hv hp hc => ?_, fun hv hp hc hh => ?_⟩
  · have hpull := pullHandle_eq_none_of_not hpre
    refine ⟨?_, ?_, ?_⟩
    · simp only [exec, execPullFrame, hpull]
    · simp only [exec, execPullStart, hpull]
    · simp only [exec, execIoFailure, failingHandle_eq_pullHandle, hpull]
  · have hwrite := phaseHandle_eq_none_of_not hpre
    refine ⟨?_, fun pkt => ?_⟩
    · simp only [exec, execWriteStep, hwrite]
    · simp only [exec, execReqReadFb, hwrite]
  · have hread := phaseHandle_eq_none_of_not hpre
    refine ⟨?_, fun rsp => ?_⟩
    · simp only [exec, execReadStep, hread]
    · simp only [exec, execRspReadFb, hread]
  · exact if_neg hpre
  · simp only [exec, execOpenAttempt, turnedAway_eq_none_iff.2 ⟨hv, hp⟩, hc]
  · simp only [exec, execTickFast, turnedAway_eq_none_iff.2 ⟨hv, hp⟩, hc, hh]

end Sys2Proof.Machine
end

section
/-! PROOFS. Failed pulls and faults (60_exceptions.md R204, R208). A failure at any chunk ends the pull in another result than `Ok`,
and the rest of a fast tick does not depend on which. The one fault is TICK_FAST's, in Connected without a handle (log 18),
which 10_state.md R22 rules out. -/

namespace Sys2Proof.Machine

section
variable {s : State} {i : Instr} {f : Fault}

/-! The result of a failed pull. -/

/-- The given answers fail a pull, at one of its writes or, all of them accepted, at one of its reads (41_frame_transfer.md
R134, R137). -/
def State.FailsPull (s : State) : Prop :=
  (∃ j ws, j < 26 ∧ s.writes = List.replicate j .ok ++ .error :: ws) ∨
    ∃ (ws : List WriteAnswer) (rsps : List Packet) (rs : List ReadAnswer), s.writes = List.replicate 26 .ok ++ ws ∧
      rsps.length < 26 ∧ s.reads = rsps.map .response ++ .errorOrTimeout :: rs

theorem State.FailsPull.result_ne_ok (hf : s.FailsPull) (h : Handle) : (s.pull h).1 ≠ .ok := by
  obtain ⟨j, ws, hj, hw⟩ | ⟨ws, rsps, rs, hw, hlen, hr⟩ := hf
  · rw [pull_of_writeFailure h hj hw]
    nofun
  · rw [pull_of_readFailure h hlen hw hr]
    nofun

/-! Where a fault comes from. -/

theorem execTickFast_eq_fault (he : execTickFast s = .fault f) : s.conn = .connected ∧ s.handle = none := by
  unfold execTickFast at he
  split at he
  · cases he
  · split at he
    · rename_i hc
      split at he
      · cases he
      · rename_i hh
        exact ⟨hc, hh⟩
    · cases he
    · cases he

/-- Every other operation has the two outcomes next and refused alone: it has no guard, one guard, or a second guard behind
the first. -/
theorem exec_eq_fault (he : exec i s = .fault f) : i = .tickFast ∧ s.conn = .connected ∧ s.handle = none := by
  cases i with
  | tickFast => exact ⟨rfl, execTickFast_eq_fault he⟩
  | checksum16 | buildRequest | checkRequest | extractPayload | rowReverse | fbZero | fbSnapshot | selectDevice | reset =>
    cases he
  | rspReadFb | pullFrame | pullStart | writeStep | readStep | ioFailure | reconnectAttempt | shutdown =>
    simp only [exec, execRspReadFb, execPullFrame, execPullStart, execWriteStep, execReadStep, execIoFailure,
      execReconnectAttempt, execShutdown] at he
    split at he <;> cases he
  | connect | tickSlow | openAttempt =>
    simp only [exec, execConnect, execTickSlow, execOpenAttempt] at he
    split at he
    · cases he
    · split at he <;> cases he
  | reqReadFb =>
    simp only [exec, execReqReadFb] at he
    split at he
    · split at he <;> cases he
    · cases he

/-- A step that faults runs an operation that does, with what is left at the port. -/
theorem exists_exec_of_step_eq_fault (hstep : step s = .fault f) : ∃ i ps, exec i (s.setPort ps) = .fault f := by
  cases hport : s.port with
  | cons p rest =>
    cases hd : decode p.bytes with
    | error e => rw [step_of_undecodable hport hd] at hstep; cases hstep
    | ok i =>
      cases hb : (s.setPort rest).barred p.source i with
      | some r => rw [step_of_barred hport hd hb] at hstep; cases hstep
      | none => exact ⟨i, rest, step_of_not_barred hport hd hb ▸ hstep⟩
  | nil =>
    cases hq : sequencer s with
    | some i => exact ⟨i, s.port, step_of_sequencer_some hport hq ▸ hstep⟩
    | none => rw [step_of_sequencer_none hport hq] at hstep; cases hstep

/-- Connected asks for a handle (10_state.md R22). -/
theorem State.Sound.exec_ne_fault (hs : s.Sound) : exec i s ≠ .fault f := by
  intro he
  obtain ⟨-, hc, hh⟩ := exec_eq_fault he
  exact Option.not_isSome_iff_eq_none.2 hh (hs.handle_iff.2 hc)

end

/-- Settles O37: the tick ends as O36 says, and its pull is that of a state with the same answers still to come. -/
theorem failedPullEntersOneFixedState : Obligations.FailedPullEntersOneFixedState := by
  intro s h hv hp hc hh hf
  obtain ⟨t, u, r, run, htick, hpull, hur, hutrace, htp, htk, -, -, -, -, -, hrun, hend⟩ :=
    tickFastWhenConnectedEnds s h hv hp hc hh
  have hfails : (s.log (.command .tickFast)).FailsPull := hf
  have hr : r ≠ .ok := by
    rw [execPullFrame_eq (s := s.log (.command .tickFast)) hc hh hp] at hpull
    cases hpull
    cases hur
    exact hfails.result_ne_ok h
  obtain ⟨rfl, -⟩ | ⟨-, rfl⟩ := hend
  · exact absurd rfl hr
  · exact ⟨_, run, htick, congrArg₂ (Block.mk .reconnecting none []) htp htk, congrArg (· ++ _) hutrace, hrun⟩

/-- Settles O49: a step runs one operation, and from a sound state none faults, whatever is left at the port. -/
theorem soundStepNeverFaults : Obligations.SoundStepNeverFaults := by
  intro s f hs hstep
  obtain ⟨i, ps, he⟩ := exists_exec_of_step_eq_fault hstep
  exact (hs.setPort ps).exec_ne_fault he

end Sys2Proof.Machine
end

section
/-! PROOFS. The steps of a pull by the transport's answer (41_frame_transfer.md R132, R133, R136; the spec's decisions D7, D9). -/

namespace Sys2Proof.Machine

section
variable {s : State} {h : Handle}

/-- A chunk with a chunk after it is not the last. -/
theorem val_ne_last_of_succ {k k' : Fin Config.chunks} (hk : k'.val = k.val + 1) : k.val ≠ 25 := by
  have hlt : k'.val < 26 := k'.isLt
  omega

theorem nextChunk_eq_of_succ {k k' : Fin Config.chunks} (hk : k'.val = k.val + 1) : nextChunk k = k' :=
  Fin.ext ((nextChunk_val_of_ne (val_ne_last_of_succ hk)).trans hk.symm)

theorem chunkRequest_eq_requestFor (k : Fin Config.chunks) : chunkRequest Config.params k = requestFor k.val := rfl

theorem exec_writeStep (hp : s.phase = .writePhase) (hh : s.handle = some h) :
    exec .writeStep s = .next (s.sendRequest h (requestFor s.k.val)) := by
  rw [← chunkRequest_eq_requestFor]
  exact execWriteStep_eq hp hh

theorem exec_readStep_of_response {rsp : Packet} (hp : s.phase = .readPhase) (hh : s.handle = some h)
    (ha : s.readAnswer = .response rsp) : exec .readStep s = .next ((s.tRead h).acceptResponse rsp) :=
  (execReadStep_eq hp hh).trans (congrArg _ (receiveResponse_response ha))

theorem exec_readStep_of_error (hp : s.phase = .readPhase) (hh : s.handle = some h) (ha : s.readAnswer = .errorOrTimeout) :
    exec .readStep s = .next ((s.tRead h).raise (.readFailedOrTimeout s.k)) :=
  (execReadStep_eq hp hh).trans (congrArg _ (receiveResponse_error ha))

end

/-- Settles O18. -/
theorem pullStartEntersTheWritePhase : Obligations.PullStartEntersTheWritePhase := fun _ _ hc hh hp =>
  execPullStart_eq hc hh hp

/-- Settles O19: the request for the chunk that is due goes out, and its answer and the position select the branch. -/
theorem writeStepSendsTheRequest : Obligations.WriteStepSendsTheRequest := by
  intro s h hp hh
  have hexec := exec_writeStep hp hh
  refine ⟨fun ha k' hk' => ?_, fun ha hk => ?_, fun ha => ?_⟩
  · rw [hexec, sendRequest_next ha (val_ne_last_of_succ hk'), nextChunk_eq_of_succ hk']
  · rw [hexec, sendRequest_last ha hk]
  · rw [hexec, sendRequest_error ha]
    rfl

/-- Settles O20: FB after a response is the chunk copy, and after the last chunk its row reversal. -/
theorem readStepCopiesTheChunk : Obligations.ReadStepCopiesTheChunk := by
  intro s h hp hh
  refine ⟨fun rsp ha => ?_, exec_readStep_of_error hp hh⟩
  have hexec := exec_readStep_of_response hp hh ha
  refine ⟨chunkCopy s.fb s.k rsp, fun a => ?_, fun k' hk' => ?_, fun hk =>
    ⟨rowReverse (chunkCopy s.fb s.k rsp), ?_, fun r c hr hc => readByte_rowReverse_row _ hr hc, fun a ha => ?_⟩⟩
  · rw [readByte_chunkCopy, payloadBytes_eq]
  · have hnext := acceptResponse_next (s := s.tRead h) rsp (val_ne_last_of_succ hk')
    rw [hexec, hnext, State.tRead_fb, State.tRead_k, nextChunk_eq_of_succ hk']
  · have hlast := acceptResponse_last (s := s.tRead h) rsp hk
    rw [hexec, hlast, State.tRead_fb, State.tRead_k]
  · rw [readByte_rowReverse, if_neg (by omega)]

end Sys2Proof.Machine
end

section
/-! PROOFS. Commands turned away (44_scheduler.md R193, 43_link_control.md R173, R177), and the transitions of link control (R173,
R174, R175, R177) with RESET (70_reset_and_hazards.md R230). -/

namespace Sys2Proof.Machine

section
variable {s t : State}

/-! Operations turned away. -/

/-- The commands other than RESET, and the open attempt inside two of them (log 3, log 19). -/
def CanBeTurnedAway (i : Instr) : Prop :=
  i = .connect ∨ i = .tickFast ∨ i = .tickSlow ∨ i = .shutdown ∨ i = .openAttempt

theorem turnedAway_eq_outOfService (hv : s.inService = false) : s.turnedAway = some .outOfService := if_pos hv

theorem turnedAway_eq_busy (hv : s.inService = true) (hp : s.phase ≠ .idle) : s.turnedAway = some .busy := by
  rw [State.turnedAway, if_neg (by simp [hv]), if_neg hp]

theorem exec_of_turnedAway {i : Instr} {r : Refusal} (hi : CanBeTurnedAway i) (hr : s.turnedAway = some r) :
    exec i s = .refused r := by
  obtain rfl | rfl | rfl | rfl | rfl := hi
  · simp only [exec, execConnect, hr]
  · simp only [exec, execTickFast, hr]
  · simp only [exec, execTickSlow, hr]
  · simp only [exec, execShutdown, hr]
  · simp only [exec, execOpenAttempt, hr]

theorem exec_of_outOfService {i : Instr} (hi : CanBeTurnedAway i) (hv : s.inService = false) :
    exec i s = .refused .outOfService :=
  exec_of_turnedAway hi (turnedAway_eq_outOfService hv)

theorem exec_connect_of_not_disconnected (hv : s.inService = true) (hp : s.phase = .idle) (hc : s.conn ≠ .disconnected) :
    exec .connect s = .refused .alreadyConnecting := by
  simp only [exec, execConnect, turnedAway_eq_none_iff.2 ⟨hv, hp⟩]
  cases hconn : s.conn with
  | disconnected => exact absurd hconn hc
  | connected | reconnecting => rfl

/-! The operations where they are accepted. -/

theorem exec_connect_of_disconnected (hv : s.inService = true) (hp : s.phase = .idle) (hc : s.conn = .disconnected) :
    exec .connect s = .next ((s.log (.command .connect)).firstConnect.setResult .nothing) := by
  simp only [exec, execConnect, turnedAway_eq_none_iff.2 ⟨hv, hp⟩, hc]

theorem exec_ioFailure_of_linked {h : Handle} (hc : s.conn = .connected) (hh : s.handle = some h) (hp : s.phase = .idle) :
    exec .ioFailure s = .next ((s.ioFailure h).setResult .nothing) := by
  simp only [exec, execIoFailure, failingHandle_eq_some_iff.2 ⟨hc, hp, hh⟩]

theorem exec_reconnectAttempt_of_reconnecting (hc : s.conn = .reconnecting) (hp : s.phase = .idle) :
    exec .reconnectAttempt s = .next (s.reconnect.2.setResult (.attempted s.reconnect.1)) :=
  if_pos ⟨hc, hp⟩

theorem exec_shutdown_of_accepted (hv : s.inService = true) (hp : s.phase = .idle) :
    exec .shutdown s = .next
      { s with
        conn := .disconnected
        handle := none
        inService := false
        trace := s.trace ++ .command .shutdown :: closeRun s.handle
        result := .nothing } := by
  simp only [exec, execShutdown, turnedAway_eq_none_iff.2 ⟨hv, hp⟩, closeHeld_eq, State.log_trace, List.append_assoc]
  rfl

/-! What follows the attempt. -/

theorem firstConnect_of_failure {e : ErrorKind} (ha : s.attempt = (.failure e, t)) :
    s.firstConnect = (t.setConn .reconnecting).log (.connChanged .reconnecting) := by
  simp only [State.firstConnect, ha]

theorem firstConnect_of_success (ha : s.attempt = (.success, t)) : s.firstConnect = t.log (.connChanged .connected) := by
  simp only [State.firstConnect, ha]

theorem reconnect_of_failure {e : ErrorKind} (ha : s.attempt = (.failure e, t)) : s.reconnect = (.failure e, t) := by
  simp only [State.reconnect, ha]

theorem reconnect_of_success (ha : s.attempt = (.success, t)) :
    s.reconnect = (.success, t.log (.connChanged .connected)) := by
  simp only [State.reconnect, ha]

end

/-! The attempt where no handle is held, so that it closes none (43_link_control.md R172, 10_state.md R22). -/

section
variable {s : State} (hh : s.handle = none)
include hh

theorem attempt_of_unlinked_no_match (hsel : selectDevice Config.params.usagePage s.enumAnswer = none) :
    s.attempt = (.failure .enumerationFailed, s.tEnumerate) := by
  rw [attempt_of_no_match hsel, closeHeld_of_handle_eq_none hh]

theorem attempt_of_unlinked_open_error {path : Path}
    (hsel : selectDevice Config.params.usagePage s.enumAnswer = some path) (ha : s.tEnumerate.openAnswer = .error) :
    s.attempt = (.failure .openFailed, s.tEnumerate.tOpen path) := by
  rw [attempt_of_open_error hsel ha, closeHeld_of_handle_eq_none hh]

theorem attempt_of_unlinked_opened {path : Path} {h : Handle}
    (hsel : selectDevice Config.params.usagePage s.enumAnswer = some path) (ha : s.tEnumerate.openAnswer = .handle h) :
    s.attempt = (.success, (s.tEnumerate.tOpen path).attach h) := by
  rw [attempt_of_opened hsel ha, closeHeld_of_handle_eq_none hh]

end

/-- Settles O31: the answers to the attempt after the line of the command select the outcome. -/
theorem connectEndsConnectedOrReconnecting : Obligations.ConnectEndsConnectedOrReconnecting := by
  intro s hv hp hc hh
  have hexec := exec_connect_of_disconnected hv hp hc
  have hh' : (s.log (.command .connect)).handle = none := hh
  refine ⟨fun hsel => ?_, fun path hsel => ⟨fun ha => ?_, fun h ha => ?_⟩⟩
  · rw [hexec, firstConnect_of_failure (attempt_of_unlinked_no_match hh' hsel)]
    simp only [State.log, State.setConn, State.tEnumerate, List.append_assoc]
    rfl
  · have hopened := tEnumerate_tOpen_eq (s := s.log (.command .connect)) ha path
    rw [hexec, firstConnect_of_failure (attempt_of_unlinked_open_error hh' hsel ha), hopened]
    simp only [State.log, State.setConn, List.append_assoc]
    rfl
  · have hopened := tEnumerate_tOpen_eq (s := s.log (.command .connect)) ha path
    rw [hexec, firstConnect_of_success (attempt_of_unlinked_opened hh' hsel ha), hopened]
    simp only [State.log, attach_trace, List.append_assoc]
    rfl

/-- Settles O32. -/
theorem ioFailureClosesAndZeroes : Obligations.IoFailureClosesAndZeroes := by
  intro s h hc hh hp
  rw [exec_ioFailure_of_linked hc hh hp, ioFailure_eq]
  rfl

/-- Settles O33: a failed attempt is handed on as it is, and a success with its event. -/
theorem reconnectAttemptConnectsOrChangesNothing : Obligations.ReconnectAttemptConnectsOrChangesNothing := by
  intro s hc hh hp
  have hexec := exec_reconnectAttempt_of_reconnecting hc hp
  refine ⟨fun hsel => ?_, fun path hsel => ⟨fun ha => ?_, fun h ha => ?_⟩⟩
  · rw [hexec, reconnect_of_failure (attempt_of_unlinked_no_match hh hsel)]
    rfl
  · rw [hexec, reconnect_of_failure (attempt_of_unlinked_open_error hh hsel ha), tEnumerate_tOpen_eq ha]
    rfl
  · rw [hexec, reconnect_of_success (attempt_of_unlinked_opened hh hsel ha), tEnumerate_tOpen_eq ha]
    simp only [State.log, attach_trace, List.append_assoc]
    rfl

/-- Settles O34: the lines of the close are `closeRun`, and out of service the other four commands are turned away. -/
theorem shutdownClosesAndLeavesOnlyReset : Obligations.ShutdownClosesAndLeavesOnlyReset := by
  intro s hv hp
  refine ⟨_, closeRun s.handle, exec_shutdown_of_accepted hv hp, fun hh => by rw [hh]; rfl, fun h hh => by rw [hh]; rfl,
    rfl, ?_, ?_, ?_, ?_⟩ <;> exact exec_of_outOfService (by simp [CanBeTurnedAway]) rfl

/-- Settles O41: RESET has no guard, and its updates fix the five registers in turn. -/
theorem resetSetsEveryRegister : Obligations.ResetSetsEveryRegister := fun _ => rfl

/-- Settles O43: each of the five is turned away with its reason, and CONNECT, not turned away, by CONN. -/
theorem untimelyCommandsAreRefused : Obligations.UntimelyCommandsAreRefused := by
  refine fun s i hi => ⟨fun hv hp => ?_, fun hv => ?_, ?_⟩
  · exact exec_of_turnedAway hi (turnedAway_eq_busy hv hp)
  · exact exec_of_outOfService hi hv
  · rintro rfl
    exact exec_connect_of_not_disconnected

end Sys2Proof.Machine
end
